-- ==== Sys2Proof/Word.lean ====
section
/-! DEFINITION. The word types of ACB: the byte of a stream, the binary64 word of a real-valued register (00_scope.md R11,
R12), and the exact value a real-valued register holds when NUMERIC = REAL. -/

namespace Sys2Proof

/-- A byte (R11). -/
abbrev Byte := BitVec 8

/-- A binary64 value as its 64-bit encoding (R12). -/
abbrev B64 := BitVec 64

/-- The real number `coef * π ^ piPow` (R12, NUMERIC = REAL; log entry 10). Every real value the pseudocode computes from
binary64 inputs has this form. Canonical: zero is `⟨0, 0⟩`, so equal numbers are equal data. -/
structure PiRat where
  coef : ℚ
  piPow : Int
  deriving DecidableEq, Repr

/-- What a real-valued output register holds: a binary64 word, or, when NUMERIC = REAL, an exact real (R12). -/
inductive Num where
  | b64 (bits : B64)
  | real (v : PiRat)
  deriving DecidableEq, Repr

end Sys2Proof
end

