-- ==== Sys2Proof/Config.lean ====
section
/-! DEFINITION. The implementation parameters of 00_scope.md R8, the normative constants of R9 and R12, and the free
constants: values the spec leaves open, declared without a body so that no proof can see them. -/

namespace Sys2Proof

/-- The parameter `NUMERIC` (R8, R12). -/
inductive Numeric where
  | binary64
  | real
  deriving DecidableEq, Repr

/-- The parameter `MAG_QUANT` (R8, R164). -/
inductive MagQuant where
  | trunc
  | rne
  deriving DecidableEq, Repr

/-- The parameter `CMD_FAULT_POLICY` (R8, R186). -/
inductive FaultPolicy where
  | skip
  | resend
  deriving DecidableEq, Repr

/-- The configuration parameters of R8. A RESET takes the ones the environment has fixed, and nothing else changes them (log
entry 5). -/
structure Params where
  wheelSep : B64
  wheelRadius : B64
  rxIdleFlush : Bool
  magQuant : MagQuant
  cmdFaultPolicy : FaultPolicy
  numeric : Numeric
  /-- A positive integer (R8), read by no rule. -/
  baud : ℕ+
  /-- In Hz, read by no rule. R8 gives no number type for it. DESIGN CHOICE: a rational number (log entry 17). -/
  odomRate : ℚ
  deriving DecidableEq, Repr

/-- `WHEEL_SEP`: OPEN in R8. DESIGN CHOICE: a free constant (log entry 5). -/
opaque Config.wheelSep : B64

/-- `WHEEL_RADIUS`: OPEN in R8. DESIGN CHOICE: a free constant (log entry 5). -/
opaque Config.wheelRadius : B64

/-- `BAUD`: OPEN in R8, read by no rule. DESIGN CHOICE: a free constant (log entry 5). -/
opaque Config.baud : ℕ+

/-- The real number that a non-finite encoding stands for when NUMERIC = REAL: R12 and R203 give none. DESIGN CHOICE: a
free value (log entry 12). -/
opaque Config.realOfNonFinite : B64 → ℚ

/-- The parameters of the machine after reset: the spec's defaults (R8), the OPEN ones free. -/
def Config.params : Params where
  wheelSep := Config.wheelSep
  wheelRadius := Config.wheelRadius
  rxIdleFlush := false
  magQuant := .trunc
  cmdFaultPolicy := .skip
  numeric := .binary64
  baud := Config.baud
  odomRate := 50

/-- `HDR0` (R9). -/
def Config.hdr0 : Byte := 0xFF
/-- `HDR1` (R9). -/
def Config.hdr1 : Byte := 0xFE
/-- `IN_LEN`: the length of an input frame in bytes (R9). Reducible, so that it is the length 8 in types. -/
abbrev Config.inLen : Nat := 8
/-- `OUT_LEN`: the length of an output frame in bytes (R9). Reducible, so that it is the length 6 in types. -/
abbrev Config.outLen : Nat := 6
/-- `SPEED_OFFSET` (R9). -/
def Config.speedOffset : Int := 500
/-- `TICK_NUM` (R9). -/
def Config.tickNum : Int := 100
/-- `TICK_DEN` (R9). -/
def Config.tickDen : Int := 1560
/-- `VOLT_DIV` (R9). -/
def Config.voltDiv : Int := 100
/-- `MAG_MAX` (R9). -/
def Config.magMax : Nat := 255
/-- `DIR_FWD` (R9). -/
def Config.dirFwd : BitVec 1 := 1
/-- `DIR_REV` (R9). -/
def Config.dirRev : BitVec 1 := 0
/-- `PI`: the binary64 number nearest to π (R12). -/
def Config.pi : B64 := 0x400921FB54442D18
/-- `TWO_PI` = 2 × `PI` (R12). -/
def Config.twoPi : B64 := 0x401921FB54442D18

end Sys2Proof
end

