-- ==== Sys2Proof/Machine/Binary64.lean ====
section
/-! DEFINITION. IEEE 754 binary64 as 00_scope.md R12 uses it: the value of an encoding, the rounding `fl`, the four
operations, comparison with zero, absolute value, minimum, and the exact conversion of an integer. Operands are converted
to exact rationals, the operation is exact, and `fl` rounds once. -/

namespace Sys2Proof.Machine

/-- The sign bit. -/
def B64.neg (x : B64) : Bool := x.msb

/-- The biased exponent field, bits [62:52]. -/
def B64.expField (x : B64) : Nat := (x.extractLsb' 52 11).toNat

/-- The fraction field, bits [51:0]. -/
def B64.frac (x : B64) : Nat := (x.extractLsb' 0 52).toNat

/-- The encoding is of a finite number (R203: neither an infinity nor a NaN). -/
def B64.isFinite (x : B64) : Bool := B64.expField x != 2047

/-- The encoding is a NaN. -/
def B64.isNaN (x : B64) : Bool := B64.expField x == 2047 && B64.frac x != 0

/-- The encoding is +0.0 or −0.0. -/
def B64.isZero (x : B64) : Bool := B64.expField x == 0 && B64.frac x == 0

/-- `m * 2 ^ e`, exactly. -/
def B64.scale (m : Nat) (e : Int) : ℚ :=
  if 0 ≤ e then ((m * 2 ^ e.toNat : Nat) : ℚ) else mkRat m (2 ^ (-e).toNat)

/-- The absolute value of a finite encoding (R12; IEEE 754 binary64: subnormals have exponent field 0). -/
def B64.magnitude (x : B64) : ℚ :=
  if B64.expField x = 0 then B64.scale (B64.frac x) (-1074)
  else B64.scale (2 ^ 52 + B64.frac x) ((B64.expField x : Int) - 1075)

/-- The exact real value of a finite encoding (R12). For a non-finite one it means nothing and nothing reads it. -/
def B64.toRat (x : B64) : ℚ := if B64.neg x then -B64.magnitude x else B64.magnitude x

/-- The encoding with sign `s` and the 63 lower bits `m`. -/
def B64.ofSignMag (s : Bool) (m : Nat) : B64 := BitVec.ofBool s ++ BitVec.ofNat 63 m

/-- `n / d` to the nearest integer, ties to even (`d > 0`). -/
def B64.divRne (n d : Nat) : Nat :=
  let q := n / d
  let r := n % d
  if d < 2 * r ∨ (2 * r = d ∧ q % 2 = 1) then q + 1 else q

/-- `⌊log2 (n / d)⌋` for positive `n` and `d`. -/
def B64.floorLog2 (n d : Nat) : Int :=
  let l : Int := (n.log2 : Int) - (d.log2 : Int)
  if n * 2 ^ (-l).toNat < d * 2 ^ l.toNat then l - 1 else l

/-- The 63 lower bits of the binary64 number nearest to `n / d`, ties to even: the significand is rounded at the quantum
`2 ^ q`, a carry out of it moves into the exponent field, and what lies beyond the largest finite number becomes infinity
(R12). -/
def B64.roundNat (n d : Nat) : Nat :=
  if n = 0 then 0
  else
    let q := max (B64.floorLog2 n d - 52) (-1074)
    let m := B64.divRne (n * 2 ^ (-q).toNat) (d * 2 ^ q.toNat)
    min ((q + 1074).toNat * 2 ^ 52 + m) (2047 * 2 ^ 52)

/-- `fl(e)`: the binary64 value of the exact real `e`, rounded to nearest, ties to even (R12). `zeroNeg` is the sign of the
result when `e` is exactly zero; otherwise the sign is that of `e`. -/
def B64.fl (zeroNeg : Bool) (e : ℚ) : B64 :=
  B64.ofSignMag (if e.num = 0 then zeroNeg else decide (e.num < 0)) (B64.roundNat e.num.natAbs e.den)

/-- An infinity with sign `s`. -/
def B64.inf (s : Bool) : B64 := B64.ofSignMag s (2047 * 2 ^ 52)

/-- A zero with sign `s`. -/
def B64.zero (s : Bool) : B64 := B64.ofSignMag s 0

/-- The NaN that an invalid operation or a NaN operand gives. PRESUMED (log entry 8): its payload reaches no register. -/
def B64.qNaN : B64 := 0x7FF8000000000000

/-- `−x`. -/
def B64.negate (x : B64) : B64 := x ^^^ 0x8000000000000000

/-- `|x|`: the sign bit cleared (R12). -/
def B64.abs (x : B64) : B64 := x &&& 0x7FFFFFFFFFFFFFFF

/-- `x + y` (R12). The zero of an exact cancellation is +0.0; that of two zeros of one sign keeps the sign. -/
def B64.add (x y : B64) : B64 :=
  if B64.isNaN x || B64.isNaN y then B64.qNaN
  else if !B64.isFinite x then
    (if !B64.isFinite y && B64.neg x != B64.neg y then B64.qNaN else x)
  else if !B64.isFinite y then y
  else B64.fl (B64.neg x && B64.neg y) (B64.toRat x + B64.toRat y)

/-- `x - y` (R12). -/
def B64.sub (x y : B64) : B64 := B64.add x (B64.negate y)

/-- `x × y` (R12). -/
def B64.mul (x y : B64) : B64 :=
  if B64.isNaN x || B64.isNaN y then B64.qNaN
  else if !B64.isFinite x || !B64.isFinite y then
    (if B64.isZero x || B64.isZero y then B64.qNaN else B64.inf (B64.neg x != B64.neg y))
  else B64.fl (B64.neg x != B64.neg y) (B64.toRat x * B64.toRat y)

/-- `x / y` (R12). -/
def B64.div (x y : B64) : B64 :=
  if B64.isNaN x || B64.isNaN y then B64.qNaN
  else if !B64.isFinite x then
    (if !B64.isFinite y then B64.qNaN else B64.inf (B64.neg x != B64.neg y))
  else if !B64.isFinite y then B64.zero (B64.neg x != B64.neg y)
  else if B64.isZero y then
    (if B64.isZero x then B64.qNaN else B64.inf (B64.neg x != B64.neg y))
  else B64.fl (B64.neg x != B64.neg y) (B64.toRat x / B64.toRat y)

/-- `x ≥ 0.0`, the IEEE comparison: −0.0 passes it and a NaN does not (R12, R162). -/
def B64.geZero (x : B64) : Bool := !B64.isNaN x && (!B64.neg x || B64.isZero x)

/-- `min(x, y)` of two finite values (R12). -/
def B64.min (x y : B64) : B64 := if B64.toRat x ≤ B64.toRat y then x else y

/-- The exact conversion of an integer of at most 53 bits; zero becomes +0.0 (R123, R124). -/
def B64.ofInt (k : Int) : B64 := B64.fl false k

/-- `floor(x)` of a non-negative finite value (R164, TRUNC). -/
def B64.floor (x : B64) : Nat := (B64.toRat x).floor.toNat

/-- The nearest integer, ties to even, of a non-negative finite value (R164, RNE). -/
def B64.nearestEven (x : B64) : Nat := B64.divRne (B64.toRat x).num.toNat (B64.toRat x).den

end Sys2Proof.Machine
end

