-- ==== Sys2Proof/Machine/ExactReal.lean ====
section
/-! DEFINITION. Exact arithmetic for NUMERIC = REAL (00_scope.md R12): numbers of the form `coef * π ^ piPow`. Binary64
inputs are rationals, the decoder multiplies one of them by 2π, the encoder divides by 2π, and sums are of like powers, so
every value of the pseudocode has this form (log entry 10). The floor of such a number is found with enough digits of π to
be exact (log entry 11). -/

namespace Sys2Proof.Machine

/-- `c * π ^ k`, canonical. -/
def PiRat.mk' (c : ℚ) (k : Int) : PiRat := if c = 0 then ⟨0, 0⟩ else ⟨c, k⟩

/-- A rational number. -/
def PiRat.ofRat (c : ℚ) : PiRat := ⟨c, 0⟩

/-- Sum. The pseudocode adds only numbers of one power of π, or a zero (log entry 10). -/
def PiRat.add (a b : PiRat) : PiRat :=
  if a.coef = 0 then b else if b.coef = 0 then a else PiRat.mk' (a.coef + b.coef) a.piPow

/-- `−a`. -/
def PiRat.neg (a : PiRat) : PiRat := ⟨-a.coef, a.piPow⟩

/-- Difference. -/
def PiRat.sub (a b : PiRat) : PiRat := PiRat.add a (PiRat.neg b)

/-- Product. -/
def PiRat.mul (a b : PiRat) : PiRat := PiRat.mk' (a.coef * b.coef) (a.piPow + b.piPow)

/-- Quotient by a non-zero number (the pseudocode checks every divisor that can be zero). -/
def PiRat.div (a b : PiRat) : PiRat := PiRat.mk' (a.coef / b.coef) (a.piPow - b.piPow)

/-- `|a|`. -/
def PiRat.abs (a : PiRat) : PiRat := ⟨|a.coef|, a.piPow⟩

/-- The real number that a binary64 encoding stands for when NUMERIC = REAL (R12): its exact value, or a free value for a
non-finite encoding (log entry 12). -/
def PiRat.ofBits (x : B64) : PiRat :=
  PiRat.ofRat (if B64.isFinite x then B64.toRat x else Config.realOfNonFinite x)

/-- The alternating sum `term/odd - (term/k²)/(odd+2) + …` of `fuel` terms: the series of `arctan (1/k)`, scaled. -/
def PiRat.arctanSum (ksq : Nat) : Nat → Nat → Nat → Int
  | 0, _, _ => 0
  | fuel + 1, term, odd => ((term / odd : Nat) : Int) - PiRat.arctanSum ksq fuel (term / ksq) (odd + 2)

/-- An integer `p` with `p < π * 2 ^ n < p + 3`, by `π = 16 arctan (1/5) - 4 arctan (1/239)`. -/
def PiRat.piBits (n : Nat) : Nat :=
  let guard := n.log2 + 10
  let one := 2 ^ (n + guard)
  let s := 16 * PiRat.arctanSum 25 ((n + guard) / 4 + 2) (one / 5) 1
    - 4 * PiRat.arctanSum 57121 ((n + guard) / 15 + 2) (one / 239) 1
  s.toNat / 2 ^ guard - 1

/-- How many bits of π decide every comparison of a number with denominator `den` against the integers and half integers
up to 255. PRESUMED: by the bound `|π - p/q| > q ^ (-42)` of K. Mahler (1953) (log entry 11). -/
def PiRat.precision (den : Nat) : Nat := 42 * (den.log2 + 12) + 64

/-- `⌊|a|⌋`; exact below 1024, and at least 1023 otherwise. -/
def PiRat.absFloor (a : PiRat) : Nat :=
  let n := PiRat.precision a.coef.den
  let p := a.coef.num.natAbs
  let q := a.coef.den
  let up := a.piPow.toNat
  let down := (-a.piPow).toNat
  if a.piPow = 0 then p / q
  else (p * (PiRat.piBits n) ^ up * (2 ^ n) ^ down) / (q * (2 ^ n) ^ up * (PiRat.piBits n + 3) ^ down)

/-- The nearest integer to `|a|`, ties to even. A tie needs a rational number. -/
def PiRat.absNearestEven (a : PiRat) : Nat :=
  let f := PiRat.absFloor (PiRat.mk' (2 * a.coef) a.piPow)
  if a.piPow = 0 ∧ 2 * |a.coef| = f ∧ f % 4 = 1 then f / 2 else (f + 1) / 2

/-- `min(|a|, 255)` (R163). -/
def PiRat.clamp (a : PiRat) : PiRat :=
  if Config.magMax ≤ PiRat.absFloor a then PiRat.ofRat Config.magMax else PiRat.abs a

end Sys2Proof.Machine
end

