-- ==== Sys2Proof/Machine/Arith.lean ====
section
/-! DEFINITION. The arithmetic domain of the real-valued stages (00_scope.md R8 NUMERIC, R12): the pseudocode of
41_telemetry_decode.md to 43_command_encoder.md is written once over a record of operations, and read over binary64 or
over the exact reals. -/

namespace Sys2Proof.Machine

/-- The operations the pseudocode uses. -/
structure Arith (α : Type) where
  /-- The value a binary64 register or event payload stands for. -/
  ofBits : B64 → α
  /-- What an output register holds for a value. -/
  toNum : α → Num
  /-- The exact conversion of an integer. -/
  ofInt : Int → α
  /-- `TWO_PI`. -/
  twoPi : α
  add : α → α → α
  sub : α → α → α
  mul : α → α → α
  div : α → α → α
  /-- Neither an infinity nor a NaN (R203 (b)). -/
  isFinite : α → Bool
  /-- +0.0 or −0.0 (R203 (a)). -/
  isZero : α → Bool
  /-- `x ≥ 0.0` (R162). -/
  geZero : α → Bool
  /-- `min(|x|, 255.0)` (R163). -/
  clamp : α → α
  /-- `floor` of a value in [0, 255] (R164). -/
  floor : α → Nat
  /-- The nearest integer, ties to even, of a value in [0, 255] (R164). -/
  nearestEven : α → Nat

/-- NUMERIC = BINARY64, the default (R12). -/
def arithB64 : Arith B64 where
  ofBits := id
  toNum := .b64
  ofInt := B64.ofInt
  twoPi := Config.twoPi
  add := B64.add
  sub := B64.sub
  mul := B64.mul
  div := B64.div
  isFinite := B64.isFinite
  isZero := B64.isZero
  geZero := B64.geZero
  clamp x := B64.min (B64.abs x) (B64.ofInt Config.magMax)
  floor := B64.floor
  nearestEven := B64.nearestEven

/-- NUMERIC = REAL (R12): PI = π, no rounding, and the finiteness test never fires. -/
def arithReal : Arith PiRat where
  ofBits := PiRat.ofBits
  toNum := .real
  ofInt k := PiRat.ofRat k
  twoPi := ⟨2, 1⟩
  add := PiRat.add
  sub := PiRat.sub
  mul := PiRat.mul
  div := PiRat.div
  isFinite _ := true
  isZero x := decide (x.coef = 0)
  geZero x := decide (0 ≤ x.coef)
  clamp := PiRat.clamp
  floor := PiRat.absFloor
  nearestEven := PiRat.absNearestEven

end Sys2Proof.Machine
end

