-- ==== Sys2Proof/Syntax.lean ====
section
/-! DEFINITION. The instructions of ACB, one constructor per row of spec/opcode_table.json, and the encoded words of its
three formats (30_encoding.md R70). -/

namespace Sys2Proof

/-- A row of the opcode table: the eight event codes of 30_encoding.md R71 and the two wire frames of R72 and R75. -/
inductive Instr where
  /-- RX_BYTE: the received byte `b` (R181). -/
  | rxByte (b : Byte)
  /-- RX_IDLE: a short read or timeout of the byte source (R182). -/
  | rxIdle
  /-- SET_CMD: a commanded twist, two binary64 values (R183). -/
  | setCmd (vx vyaw : B64)
  /-- ODOM_TICK (R184). -/
  | odomTick
  /-- BATT_TICK (R185). -/
  | battTick
  /-- CMD_TICK (R186). -/
  | cmdTick
  /-- RESET: `chanOk` says whether the byte channel was opened (R187). -/
  | reset (chanOk : Bool)
  /-- RESERVED: event code 0b111, its payload ignored (R188). -/
  | reserved
  /-- RXFRAME: an input wire frame, its three 16-bit fields (R72). -/
  | rxFrame (vL vR bat : BitVec 16)
  /-- TXFRAME: an output wire frame, its four field bytes (R75). -/
  | txFrame (lmag ldir rmag rdir : Byte)
  deriving DecidableEq, Repr

/-- An encoded word of one of the three formats (R70): an event word of 131 bits (R79), an input wire frame of 64 bits
(R72), an output wire frame of 48 bits (R75). -/
inductive InputWord where
  | ev (w : BitVec 131)
  | rxf (w : BitVec 64)
  | txf (w : BitVec 48)
  deriving DecidableEq, Repr

end Sys2Proof
end

