-- ==== Sys2Proof/WellFormed.lean ====
section
/-! DEFINITION. Which instruction terms stand for words of the opcode table. Every event payload is legal (30_encoding.md
R78) and so is every payload of an input frame (R73); the direction bytes of an output frame are 0 or 1 (R75, R76). -/

namespace Sys2Proof

/-- A direction byte ACB can send (R76). -/
def dirByteOk (d : Byte) : Bool := d == 0 || d == 1

/-- The instruction is a word of the opcode table. -/
def Instr.wellFormed : Instr → Bool
  | .rxByte _ => true
  | .rxIdle => true
  | .setCmd _ _ => true
  | .odomTick => true
  | .battTick => true
  | .cmdTick => true
  | .reset _ => true
  | .reserved => true
  | .rxFrame _ _ _ => true
  | .txFrame _ ldir _ rdir => dirByteOk ldir && dirByteOk rdir

/-- The instruction is one of the input events of 30_encoding.md R71, not a wire frame. -/
def Instr.isEvent : Instr → Bool
  | .rxByte _ => true
  | .rxIdle => true
  | .setCmd _ _ => true
  | .odomTick => true
  | .battTick => true
  | .cmdTick => true
  | .reset _ => true
  | .reserved => true
  | .rxFrame _ _ _ => false
  | .txFrame _ _ _ _ => false

end Sys2Proof
end

