-- ==== Sys2Proof/Decode.lean ====
section
/-! DEFINITION. The decoder of the three formats (30_encoding.md R70 to R79), total on any word, and the encoder. -/

namespace Sys2Proof

/-- Why a word is no row of the opcode table, with the word. -/
inductive DecodeError where
  /-- A 64-bit word that does not start with the header pair 0xFF, 0xFE (R73). -/
  | notAnInputFrame (w : BitVec 64)
  /-- A 48-bit word without the header pair, or with a direction byte other than 0 and 1 (R76). -/
  | notAnOutputFrame (w : BitVec 48)
  deriving DecidableEq, Repr

/-- The event of an event word: the code in bits [2:0], the payload above it, all other bits ignored (R71, R79). -/
def decodeEvent (w : BitVec 131) : Instr :=
  let code := w.extractLsb' 0 3
  if code = 0b000 then .rxByte (w.extractLsb' 3 8)
  else if code = 0b001 then .rxIdle
  else if code = 0b010 then .setCmd (w.extractLsb' 3 64) (w.extractLsb' 67 64)
  else if code = 0b011 then .odomTick
  else if code = 0b100 then .battTick
  else if code = 0b101 then .cmdTick
  else if code = 0b110 then .reset (w.getLsbD 3)
  else .reserved -- code 0b111, the only one left

/-- The fields of an input wire frame that has the header pair (R72, R73, R74). -/
def decodeRxFrame (w : BitVec 64) : Except DecodeError Instr :=
  if w.extractLsb' 48 16 = Config.hdr0 ++ Config.hdr1 then
    .ok (.rxFrame (w.extractLsb' 32 16) (w.extractLsb' 16 16) (w.extractLsb' 0 16))
  else .error (.notAnInputFrame w)

/-- The fields of an output wire frame that has the header pair and legal direction bytes (R75, R76). -/
def decodeTxFrame (w : BitVec 48) : Except DecodeError Instr :=
  if w.extractLsb' 32 16 = Config.hdr0 ++ Config.hdr1 ∧ dirByteOk (w.extractLsb' 16 8) ∧ dirByteOk (w.extractLsb' 0 8) then
    .ok (.txFrame (w.extractLsb' 24 8) (w.extractLsb' 16 8) (w.extractLsb' 8 8) (w.extractLsb' 0 8))
  else .error (.notAnOutputFrame w)

/-- The instruction of an encoded word. -/
def decode : InputWord → Except DecodeError Instr
  | .ev w => .ok (decodeEvent w)
  | .rxf w => decodeRxFrame w
  | .txf w => decodeTxFrame w

/-- The word of a row that the opcode table gives `nbits` bits (log entry 9): 64 bits are an input frame, 48 an output
frame, anything else an event word, whose bits above `nbits` are 0. -/
def tableWord (nbits w : Nat) : InputWord :=
  if nbits = 64 then .rxf (BitVec.ofNat 64 w)
  else if nbits = 48 then .txf (BitVec.ofNat 48 w)
  else .ev (BitVec.ofNat 131 (w % 2 ^ nbits))

/-- The instruction the decoder reads from a table word. -/
def decodeTableWord (nbits w : Nat) : Option Instr :=
  match decode (tableWord nbits w) with
  | .ok i => some i
  | .error _ => none

/-- An event word: the payload above the 3-bit code (R79). -/
def eventWord {n : Nat} (payload : BitVec n) (code : BitVec 3) : BitVec 131 := (payload ++ code).setWidth 131

/-- The word of an instruction, written from R71, R72, R75 and R79; ignored payload bits are 0. -/
def encode : Instr → InputWord
  | .rxByte b => .ev (eventWord b 0b000)
  | .rxIdle => .ev (eventWord 0#0 0b001)
  | .setCmd vx vyaw => .ev (eventWord (vyaw ++ vx) 0b010)
  | .odomTick => .ev (eventWord 0#0 0b011)
  | .battTick => .ev (eventWord 0#0 0b100)
  | .cmdTick => .ev (eventWord 0#0 0b101)
  | .reset chanOk => .ev (eventWord (BitVec.ofBool chanOk) 0b110)
  | .reserved => .ev (eventWord 0#0 0b111)
  | .rxFrame vL vR bat => .rxf (Config.hdr0 ++ Config.hdr1 ++ vL ++ vR ++ bat)
  | .txFrame lmag ldir rmag rdir => .txf (Config.hdr0 ++ Config.hdr1 ++ lmag ++ ldir ++ rmag ++ rdir)

end Sys2Proof
end

