-- ==== Sys2Proof/Machine/State.lean ====
section
/-! DEFINITION. The state of ACB: every register of 10_state.md R22, and, since the host's step takes a state and nothing
else, the parameters, the input still to come and the outputs (R33, R34). -/

namespace Sys2Proof.Machine

/-- `MODE` (R22, R23). -/
inductive Mode where
  | run
  | fatal
  deriving DecidableEq, Repr

/-- The sub-cause recorded with SKIP_ARITH (60_exceptions.md R200, R203). -/
inductive SubCause where
  | divZero
  | nonFinite
  deriving DecidableEq, Repr

/-- The tag recorded with an RX_BYTE's OK (60_exceptions.md R200, 40_synchronizer.md R101 to R103). -/
inductive RxTag where
  | fill
  | accept
  | slip
  deriving DecidableEq, Repr

/-- The outcome codes of 60_exceptions.md R200, in the order of their numbers 0 to 4, with what is recorded beside them. -/
inductive OutcomeCode where
  | ok (tag : Option RxTag)
  | skipNoFrame
  | skipArith (cause : SubCause)
  | refused
  | dead
  deriving DecidableEq, Repr

/-- What an observer sees of one event beside the level ports and TX: the strobe `FRAME_PUB` and the outcome code
(10_state.md R34 (c), (d)). -/
structure Observation where
  outcome : OutcomeCode
  framePub : Bool
  deriving DecidableEq, Repr

/-- The four `WCMD_*` registers, written together (10_state.md R22, R29); a direction bit is 1 for forward. -/
structure WheelCommand where
  lmag : Byte
  ldir : BitVec 1
  rmag : Byte
  rdir : BitVec 1
  deriving DecidableEq, Repr

/-- What the environment does next: it delivers an encoded word, or, before it releases a RESET, it fixes the parameters that
the RESET will take (70_reset_and_hazards.md R234; log entries 3 and 5). -/
inductive Input where
  | word (w : InputWord)
  | fixParameters (p : Params)
  deriving DecidableEq, Repr

/-- The state of ACB. The fields up to `cfgRadius` are the registers of 10_state.md R22, in its order; the last five are the
model's own (log entries 3, 5 and 6). -/
structure State where
  /-- `MODE` -/
  mode : Mode
  /-- `WIN[0..7]` -/
  win : Vector Byte Config.inLen
  /-- `WIN_N` -/
  winN : Fin Config.inLen
  /-- `LATEST_FRAME` -/
  latestFrame : BitVec 64
  /-- `LATEST_VALID` -/
  latestValid : Bool
  /-- `CMD_VX` -/
  cmdVx : B64
  /-- `CMD_VYAW` -/
  cmdVyaw : B64
  /-- `WHEEL_WL` -/
  wheelWL : Num
  /-- `WHEEL_WR` -/
  wheelWR : Num
  /-- `MEAS_VX` -/
  measVx : Num
  /-- `MEAS_VYAW` -/
  measVyaw : Num
  /-- `MEAS_VALID` -/
  measValid : Bool
  /-- `VOLT` -/
  volt : Num
  /-- `VOLT_VALID` -/
  voltValid : Bool
  /-- `WCMD_LMAG`, `WCMD_LDIR`, `WCMD_RMAG`, `WCMD_RDIR` -/
  wcmd : WheelCommand
  /-- `CFG_SEP` -/
  cfgSep : B64
  /-- `CFG_RADIUS` -/
  cfgRadius : B64
  /-- The parameters of 00_scope.md R8, as fixed at the last reset. -/
  par : Params
  /-- The parameters that the environment has fixed for the next RESET (70_reset_and_hazards.md R234). -/
  envPar : Params
  /-- What the environment has still to do, the next first. -/
  input : List Input
  /-- Every byte put on `TX`, oldest first. -/
  tx : List Byte
  /-- The observations of the events the last step performed, in order. -/
  obs : List Observation
  deriving DecidableEq, Repr

/-- Why a step can stop with a fault: ACB has no such reason. Every outcome of 60_exceptions.md R200, skips and DEAD among
them, is followed by the performance of the next event (R207), so this type has no constructor (log entry 15: safe, it
forbids the model to stop where the spec goes on). -/
inductive Fault where
  deriving DecidableEq, Repr

/-- Why a step can be refused: for no reason that a run meets. -/
inductive Refusal where
  /-- Raised by `exec` for an instruction that has no meaning yet; no arm uses it. Safe: the model stops. -/
  | notModelled (mnemonic : String)
  deriving DecidableEq, Repr

/-- +0.0 in an output register (R22), in the arithmetic domain of the machine (R12). -/
def zeroNum : Numeric → Num
  | .binary64 => .b64 0
  | .real => .real ⟨0, 0⟩

/-- The machine right after a RESET with `chan_ok` = 1 (70_reset_and_hazards.md R230, R231; 10_state.md R22), the parameters at
the spec's defaults and the OPEN ones free (R8), no input delivered and nothing transmitted yet. -/
def State.reset : State where
  mode := .run
  win := Vector.replicate Config.inLen 0
  winN := 0
  latestFrame := 0
  latestValid := false
  cmdVx := 0
  cmdVyaw := 0
  wheelWL := zeroNum Config.params.numeric
  wheelWR := zeroNum Config.params.numeric
  measVx := zeroNum Config.params.numeric
  measVyaw := zeroNum Config.params.numeric
  measValid := false
  volt := zeroNum Config.params.numeric
  voltValid := false
  wcmd := ⟨0, 1, 0, 1⟩
  cfgSep := Config.params.wheelSep
  cfgRadius := Config.params.wheelRadius
  par := Config.params
  envPar := Config.params
  input := []
  tx := []
  obs := [⟨.ok none, false⟩]

end Sys2Proof.Machine
end

