-- ==== Sys2Proof/Machine/Flags.lean ====
section
/-! DEFINITION. The flags of ACB, the three valid bits (10_state.md R32), and the two per-step outputs (R34 (c), (d)). -/

namespace Sys2Proof.Machine

/-- `LATEST_VALID` <- 1 (R25, R32). -/
def State.setLatestValid (s : State) : State := { s with latestValid := true }

/-- `MEAS_VALID` <- 1 (R27, R32). -/
def State.setMeasValid (s : State) : State := { s with measValid := true }

/-- `VOLT_VALID` <- 1 (R28, R32). -/
def State.setVoltValid (s : State) : State := { s with voltValid := true }

/-- The strobe `FRAME_PUB` of the last step (R34 (c), 40_synchronizer.md R111): some event of it published a frame. -/
def State.framePub (s : State) : Bool := s.obs.any (·.framePub)

/-- The number of an outcome code (60_exceptions.md R200). -/
def outcomeNumber : OutcomeCode → Nat
  | .ok _ => 0
  | .skipNoFrame => 1
  | .skipArith _ => 2
  | .refused => 3
  | .dead => 4

end Sys2Proof.Machine
end

