-- ==== Sys2Proof/Machine/Operands.lean ====
section
/-! DEFINITION. Operand forms: the fields of the input frame, its packing, the bytes of the two wire frames. -/

namespace Sys2Proof.Machine

/-- `u16be(hi, lo)` (00_scope.md R11, 20_memory.md R57). -/
def u16be (hi lo : Byte) : Nat := hi.toNat * 256 + lo.toNat

/-- The window packed as a frame, `WIN[0]` in bits [63:56] (30_encoding.md R72, 40_synchronizer.md R102). -/
def packWindow (w : Vector Byte Config.inLen) : BitVec 64 :=
  w[0] ++ w[1] ++ w[2] ++ w[3] ++ w[4] ++ w[5] ++ w[6] ++ w[7]

/-- Byte F[k] of a packed input frame, bits [63−8k : 56−8k] (30_encoding.md R72). -/
def frameByte (w : BitVec 64) (k : Nat) : Byte := w.extractLsb' (56 - 8 * k) 8

/-- The eight bytes of a 64-bit word, F[0] first (30_encoding.md R72). -/
def frameBytes (w : BitVec 64) : Vector Byte Config.inLen :=
  #v[frameByte w 0, frameByte w 1, frameByte w 2, frameByte w 3, frameByte w 4, frameByte w 5, frameByte w 6,
    frameByte w 7]

/-- `vL` = w[47:32], zero-extended (30_encoding.md R74, 41_telemetry_decode.md R122). -/
def frameLeft (w : BitVec 64) : Nat := (w.extractLsb' 32 16).toNat

/-- `vR` = w[31:16], zero-extended (R74, R122). -/
def frameRight (w : BitVec 64) : Nat := (w.extractLsb' 16 16).toNat

/-- `b` = w[15:0], zero-extended (R74, R122). -/
def frameBattery (w : BitVec 64) : Nat := (w.extractLsb' 0 16).toNat

/-- The eight bytes of an input wire frame, F[0] first (30_encoding.md R72, R82). -/
def rxFrameBytes (vL vR bat : BitVec 16) : Vector Byte Config.inLen :=
  #v[Config.hdr0, Config.hdr1, vL.extractLsb' 8 8, vL.extractLsb' 0 8, vR.extractLsb' 8 8, vR.extractLsb' 0 8,
    bat.extractLsb' 8 8, bat.extractLsb' 0 8]

/-- The six bytes of an output wire frame, T[0] first (30_encoding.md R75, R80). -/
def txFrameBytes (lmag ldir rmag rdir : Byte) : Vector Byte Config.outLen :=
  #v[Config.hdr0, Config.hdr1, lmag, ldir, rmag, rdir]

/-- ENC_FRAME: the output frame of a wheel command (43_command_encoder.md R166). -/
def encFrame (c : WheelCommand) : Vector Byte Config.outLen :=
  txFrameBytes c.lmag (c.ldir.setWidth 8) c.rmag (c.rdir.setWidth 8)

end Sys2Proof.Machine
end

