-- ==== Sys2Proof/Machine/Ops.lean ====
section
/-! DEFINITION. The named operations over the state: observations, skips, the dispatch on `MODE`, the atomic writes of each
register group, the transmit and input streams, and the reset of every register. -/

namespace Sys2Proof.Machine

/-- The event ends with outcome `c` and without strobing `FRAME_PUB` (44_events.md R180, 60_exceptions.md R200). -/
def State.observe (s : State) (c : OutcomeCode) : State := { s with obs := [⟨c, false⟩] }

/-- The event ends with outcome OK/ACCEPT and `FRAME_PUB` true (40_synchronizer.md R102, R111). -/
def State.observeAccept (s : State) : State := { s with obs := [⟨.ok (some .accept), true⟩] }

/-- Taking a skip, ACB's only exception (60_exceptions.md R201): no register is written, no mode changes, nothing is saved
and no handler runs; the outcome says why. There is no return from it (R212): the next event is performed normally. -/
def State.skip (s : State) (c : OutcomeCode) : State := s.observe c

/-- An event in FATAL mode (60_exceptions.md R206). -/
def State.dead (s : State) : State := s.observe .dead

/-- The dispatch on `MODE` of 44_events.md R180: in FATAL outcome DEAD, in RUN the event's own rule. -/
def State.perform (s : State) (rule : State → State) : State :=
  match s.mode with
  | .fatal => s.dead
  | .run => rule s

/-- `Publish` of the latest frame (40_synchronizer.md R102; 20_memory.md R54). -/
def State.publishFrame (s : State) (f : BitVec 64) : State := { s with latestFrame := f }.setLatestValid

/-- `Publish` of the commanded twist (44_events.md R183). -/
def State.publishCommand (s : State) (vx vyaw : B64) : State := { s with cmdVx := vx, cmdVyaw := vyaw }

/-- The four values an ODOM_TICK publishes. -/
structure Measurement where
  wl : Num
  wr : Num
  vx : Num
  vyaw : Num
  deriving DecidableEq, Repr

/-- `Publish` of the measured registers (44_events.md R184). -/
def State.publishMeasurement (s : State) (m : Measurement) : State :=
  { s with wheelWL := m.wl, wheelWR := m.wr, measVx := m.vx, measVyaw := m.vyaw }.setMeasValid

/-- `Publish` of the battery voltage (44_events.md R185). -/
def State.publishVoltage (s : State) (v : Num) : State := { s with volt := v }.setVoltValid

/-- `Publish` of the wheel command (44_events.md R186). -/
def State.publishWheelCommand (s : State) (c : WheelCommand) : State := { s with wcmd := c }

/-- `TxFrame`: the six bytes of a frame are appended to `TX`, in order (00_scope.md R13; 20_memory.md R52; 30_encoding.md
R80). -/
def State.transmit (s : State) (frame : Vector Byte Config.outLen) : State := { s with tx := s.tx ++ frame.toList }

/-- Every register at its reset value under the parameters `p`, which stay fixed from then on (00_scope.md R8); nothing sent
(70_reset_and_hazards.md R230). The input stream goes on and what was transmitted stays transmitted. -/
def State.resetRegisters (s : State) (p : Params) (chanOk : Bool) : State where
  mode := if chanOk then .run else .fatal
  win := Vector.replicate Config.inLen 0x00
  winN := 0
  latestFrame := 0
  latestValid := false
  cmdVx := 0
  cmdVyaw := 0
  wheelWL := zeroNum p.numeric
  wheelWR := zeroNum p.numeric
  measVx := zeroNum p.numeric
  measVyaw := zeroNum p.numeric
  measValid := false
  volt := zeroNum p.numeric
  voltValid := false
  wcmd := ⟨0, Config.dirFwd, 0, Config.dirFwd⟩
  cfgSep := p.wheelSep
  cfgRadius := p.wheelRadius
  par := p
  envPar := s.envPar
  input := s.input
  tx := s.tx
  obs := s.obs

/-- What the environment does next and the state without it; none when it does nothing yet (log entry 3). -/
def State.fetch (s : State) : Option (Input × State) :=
  match s.input with
  | [] => none
  | x :: rest => some (x, { s with input := rest })

/-- No event is performed: ACB holds its state (60_exceptions.md R217) and there is nothing to observe (log entry 4). -/
def State.noEvent (s : State) : State := { s with obs := [] }

/-- The environment fixes the parameters of the next RESET (70_reset_and_hazards.md R234); ACB holds its state. -/
def State.setEnvPar (s : State) (p : Params) : State := { s.noEvent with envPar := p }

/-- The input stream with one more word, as the next one. -/
def State.deliver (s : State) (w : InputWord) : State := { s with input := .word w :: s.input }

end Sys2Proof.Machine
end

