-- ==== Sys2Proof/Machine/Decoder.lean ====
section
/-! DEFINITION. The telemetry decoder of 41_telemetry_decode.md, over either arithmetic domain. -/

namespace Sys2Proof.Machine

/-- DEC_WHEEL (R123): the wheel speed in rad/s of a raw speed field. -/
def decWheel {α : Type} (A : Arith α) (v : Nat) : α :=
  A.mul (A.div (A.ofInt (((v : Int) - Config.speedOffset) * Config.tickNum)) (A.ofInt Config.tickDen)) A.twoPi

/-- DEC_VOLT (R124): the voltage of a raw battery field. -/
def decVolt {α : Type} (A : Arith α) (b : Nat) : α := A.div (A.ofInt b) (A.ofInt Config.voltDiv)

/-- DEC_MOTION (R125): left from bytes 2 and 3, right from bytes 4 and 5 of one snapshot. -/
def decMotion {α : Type} (A : Arith α) (w : BitVec 64) : α × α :=
  (decWheel A (frameLeft w), decWheel A (frameRight w))

end Sys2Proof.Machine
end

