-- ==== Sys2Proof/Machine/Kinematics.lean ====
section
/-! DEFINITION. The differential-drive solver of 42_kinematics.md, over either arithmetic domain. An error is the sub-cause
of the SKIP_ARITH of 60_exceptions.md R203, from the first failing check in pseudocode order. -/

namespace Sys2Proof.Machine

/-- KIN_FWD (R141): the measured twist `(Vx, Vyaw)` of the wheel speeds. -/
def kinFwd {α : Type} (A : Arith α) (wl wr r l : α) : Except SubCause (α × α) :=
  if !(A.isFinite wl && A.isFinite wr && A.isFinite r && A.isFinite l) then .error .nonFinite
  else
    let vl := A.mul wl r
    let vr := A.mul wr r
    let vx := A.div (A.add vr vl) (A.ofInt 2)
    if A.isZero l then .error .divZero
    else
      let vyaw := A.div (A.sub vr vl) l
      if A.isFinite vl && A.isFinite vr && A.isFinite vx && A.isFinite vyaw then .ok (vx, vyaw)
      else .error .nonFinite

/-- KIN_INV (R142): the wheel speeds `(ωL, ωR)` of a commanded twist. -/
def kinInv {α : Type} (A : Arith α) (vx vyaw r l : α) : Except SubCause (α × α) :=
  if !(A.isFinite vx && A.isFinite vyaw && A.isFinite r && A.isFinite l) then .error .nonFinite
  else
    let h := A.div l (A.ofInt 2)
    let t := A.mul h vyaw
    if A.isZero r then .error .divZero
    else
      let wr := A.div (A.add vx t) r
      let wl := A.div (A.sub vx t) r
      if A.isFinite h && A.isFinite t && A.isFinite wr && A.isFinite wl then .ok (wl, wr)
      else .error .nonFinite

end Sys2Proof.Machine
end

