-- ==== Sys2Proof/Machine/Encoder.lean ====
section
/-! DEFINITION. The motor command encoder of 43_command_encoder.md, over either arithmetic domain. -/

namespace Sys2Proof.Machine

/-- ENC_TICKS (R161): a wheel speed in ticks. -/
def encTicks {α : Type} (A : Arith α) (w : α) : Except SubCause α :=
  let a := A.div w A.twoPi
  let c := A.mul a (A.ofInt Config.tickDen)
  let t := A.div c (A.ofInt Config.tickNum)
  if A.isFinite t then .ok t else .error .nonFinite

/-- ENC_DIR (R162): the direction of the unclamped, unquantised tick value. -/
def encDir {α : Type} (A : Arith α) (t : α) : BitVec 1 := if A.geZero t then Config.dirFwd else Config.dirRev

/-- ENC_CLAMP (R163): `min(|t|, 255.0)`. -/
def encClamp {α : Type} (A : Arith α) (t : α) : α := A.clamp t

/-- ENC_QUANT (R164): the magnitude byte of a clamped value. -/
def encQuant {α : Type} (A : Arith α) (q : MagQuant) (m : α) : Byte :=
  match q with
  | .trunc => BitVec.ofNat 8 (A.floor m)
  | .rne => BitVec.ofNat 8 (A.nearestEven m)

/-- ENC_WHEEL (R165): magnitude and direction of one wheel. -/
def encWheel {α : Type} (A : Arith α) (q : MagQuant) (w : α) : Except SubCause (Byte × BitVec 1) :=
  match encTicks A w with
  | .error c => .error c
  | .ok t => .ok (encQuant A q (encClamp A t), encDir A t)

/-- ENCODE (R167): the wheel command of a commanded twist; the first failure ends it. -/
def encodeCommand {α : Type} (A : Arith α) (q : MagQuant) (vx vyaw r l : α) : Except SubCause WheelCommand :=
  match kinInv A vx vyaw r l with
  | .error c => .error c
  | .ok (wl, wr) =>
    match encWheel A q wl with
    | .error c => .error c
    | .ok (lmag, ldir) =>
      match encWheel A q wr with
      | .error c => .error c
      | .ok (rmag, rdir) => .ok ⟨lmag, ldir, rmag, rdir⟩

end Sys2Proof.Machine
end

