-- ==== Sys2Proof/Machine/Command.lean ====
section
/-! DEFINITION. The command instructions: SET_CMD, CMD_TICK and the output wire frame TXFRAME. -/

namespace Sys2Proof.Machine

/-- SET_CMD in RUN mode (44_events.md R183): any pair of encodings is stored as given. -/
def setCmdRule (vx vyaw : B64) (s : State) : State := (s.publishCommand vx vyaw).observe (.ok none)

/-- SET_CMD (44_events.md R183). -/
def execSetCmd (vx vyaw : B64) (s : State) : Host.Outcome State Fault Refusal := .next (s.perform (setCmdRule vx vyaw))

/-- ENCODE of the registers, in one arithmetic domain (43_command_encoder.md R167). -/
def encodeWith {α : Type} (A : Arith α) (s : State) : Except SubCause WheelCommand :=
  encodeCommand A s.par.magQuant (A.ofBits s.cmdVx) (A.ofBits s.cmdVyaw) (A.ofBits s.cfgRadius) (A.ofBits s.cfgSep)

/-- ENCODE of the registers (43_command_encoder.md R167), in the domain `NUMERIC` selects (00_scope.md R12). -/
def encodeRegisters (s : State) : Except SubCause WheelCommand :=
  match s.par.numeric with
  | .binary64 => encodeWith arithB64 s
  | .real => encodeWith arithReal s

/-- What a CMD_TICK transmits when its computation fails (44_events.md R186): nothing, or the previous frame. -/
def resendFrame (s : State) : State :=
  match s.par.cmdFaultPolicy with
  | .skip => s
  | .resend => s.transmit (encFrame s.wcmd)

/-- CMD_TICK in RUN mode (44_events.md R186). -/
def cmdTickRule (s : State) : State :=
  match encodeRegisters s with
  | .ok c => ((s.publishWheelCommand c).transmit (encFrame c)).observe (.ok none)
  | .error cause => (resendFrame s).skip (.skipArith cause)

/-- CMD_TICK (44_events.md R186). -/
def execCmdTick (s : State) : Host.Outcome State Fault Refusal := .next (s.perform cmdTickRule)

/-- TXFRAME: an output wire frame travels from TX to the motor hardware. It is no event (30_encoding.md R71), ACB receives
nothing from the transmit side, no ACB state depends on the frame's fate, and only CMD_TICK writes TX (20_memory.md R52;
60_exceptions.md R205): ACB holds its state, in either mode. DEDUCED (log entry 2). -/
def execTxFrame (_lmag _ldir _rmag _rdir : Byte) (s : State) : Host.Outcome State Fault Refusal := .next s.noEvent

end Sys2Proof.Machine
end

