-- ==== Sys2Proof/Machine/Control.lean ====
section
/-! DEFINITION. The control instructions: RESET and the reserved event code. -/

namespace Sys2Proof.Machine

/-- RESET, performed in either mode, under the parameters the environment has fixed (44_events.md R187;
70_reset_and_hazards.md R230, R234). -/
def execReset (chanOk : Bool) (s : State) : Host.Outcome State Fault Refusal :=
  .next ((s.resetRegisters s.envPar chanOk).observe (if chanOk then .ok none else .dead))

/-- The reserved code in RUN mode (44_events.md R188): no effect, outcome REFUSED. -/
def reservedRule (s : State) : State := s.observe .refused

/-- RESERVED (44_events.md R188). -/
def execReserved (s : State) : Host.Outcome State Fault Refusal := .next (s.perform reservedRule)

end Sys2Proof.Machine
end

