-- ==== Sys2Proof/Machine/Sync.lean ====
section
/-! DEFINITION. The frame synchronizer of 40_synchronizer.md: fill, accept, slip, idle. -/

namespace Sys2Proof.Machine

/-- The header test of a full window (40_synchronizer.md R102; 30_encoding.md R73). -/
def headerOk (w : Vector Byte Config.inLen) : Bool := w[0] == Config.hdr0 && w[1] == Config.hdr1

/-- The window after one byte is discarded: `WIN[i] <- WIN[i+1]` for i in 0..6, `WIN[7]` as it was (R103). -/
def slideWindow (w : Vector Byte Config.inLen) : Vector Byte Config.inLen :=
  #v[w[1], w[2], w[3], w[4], w[5], w[6], w[7], w[7]]

/-- SYNC_ACCEPT (R102): the window is published as the latest frame and emptied. -/
def syncAccept (s : State) : State :=
  { s.publishFrame (packWindow s.win) with winN := 0 }.observeAccept

/-- SYNC_SLIP (R103): the oldest byte is discarded, `IN_LEN` − 1 are kept. -/
def syncSlip (s : State) : State :=
  { s with win := slideWindow s.win, winN := ⟨Config.inLen - 1, by decide⟩ }.observe (.ok (some .slip))

/-- SYNC_CHECK of a window that holds eight bytes (R101 to R103). -/
def syncCheck (s : State) : State := if headerOk s.win then syncAccept s else syncSlip s

/-- SYNC_FILL (R101): the byte is appended; a window of eight bytes is checked in the same step. -/
def syncFill (b : Byte) (s : State) : State :=
  let filled := { s with win := s.win.set s.winN b }
  if h : s.winN.val + 1 < Config.inLen then { filled with winN := ⟨s.winN.val + 1, h⟩ }.observe (.ok (some .fill))
  else syncCheck filled

/-- SYNC_IDLE (R104). -/
def syncIdle (s : State) : State :=
  (if s.par.rxIdleFlush then { s with winN := 0 } else s).observe (.ok none)

end Sys2Proof.Machine
end

