-- ==== Sys2Proof/Machine/Receive.lean ====
section
/-! DEFINITION. The receive instructions: RX_BYTE, RX_IDLE and the input wire frame RXFRAME. -/

namespace Sys2Proof.Machine

/-- One RX_BYTE event (44_events.md R180, R181). -/
def State.receive (s : State) (b : Byte) : State := s.perform (syncFill b)

/-- RX_BYTE events for the bytes in order, each from the state the one before left, their observations in order. -/
def receiveAll : List Byte → State → State
  | [], s => { s with obs := [] }
  | b :: bs, s =>
    let s1 := s.receive b
    let s2 := receiveAll bs s1
    { s2 with obs := s1.obs ++ s2.obs }

/-- RX_BYTE (44_events.md R181). -/
def execRxByte (b : Byte) (s : State) : Host.Outcome State Fault Refusal := .next (s.receive b)

/-- RX_IDLE (44_events.md R182). -/
def execRxIdle (s : State) : Host.Outcome State Fault Refusal := .next (s.perform syncIdle)

/-- RXFRAME: an input wire frame arrives (30_encoding.md R72). DESIGN CHOICE (log entry 1): it is the expansion that R82
gives it, its eight bytes received in order, in one step of the model. -/
def execRxFrame (vL vR bat : BitVec 16) (s : State) : Host.Outcome State Fault Refusal :=
  .next (receiveAll (rxFrameBytes vL vR bat).toList s)

/-- An input word that is no row of the opcode table (log entry 14). Eight bytes that are no input frame are received like any
bytes: they are no error and are slipped (30_encoding.md R78; 40_synchronizer.md R103; 60_exceptions.md R204). A frame on the
transmit side has no effect on ACB (20_memory.md R52), whatever its bytes. -/
def State.takeNonRow (s : State) : DecodeError → State
  | .notAnInputFrame w => receiveAll (frameBytes w).toList s
  | .notAnOutputFrame _ => s.noEvent

end Sys2Proof.Machine
end

