-- ==== Sys2Proof/Machine/Ticks.lean ====
section
/-! DEFINITION. The telemetry instructions: ODOM_TICK and BATT_TICK. -/

namespace Sys2Proof.Machine

/-- The measurement of the latest frame, in one arithmetic domain (41_telemetry_decode.md R125, 42_kinematics.md R141). -/
def measureWith {α : Type} (A : Arith α) (s : State) : Except SubCause Measurement :=
  let w := decMotion A s.latestFrame
  match kinFwd A w.1 w.2 (A.ofBits s.cfgRadius) (A.ofBits s.cfgSep) with
  | .error c => .error c
  | .ok (vx, vyaw) => .ok ⟨A.toNum w.1, A.toNum w.2, A.toNum vx, A.toNum vyaw⟩

/-- The measurement of the latest frame, in the domain `NUMERIC` selects (00_scope.md R12). -/
def odomMeasurement (s : State) : Except SubCause Measurement :=
  match s.par.numeric with
  | .binary64 => measureWith arithB64 s
  | .real => measureWith arithReal s

/-- ODOM_TICK in RUN mode (44_events.md R184; DEC_CHECK of 41_telemetry_decode.md R121). -/
def odomTickRule (s : State) : State :=
  if s.latestValid = false then s.skip .skipNoFrame
  else
    match odomMeasurement s with
    | .error cause => s.skip (.skipArith cause)
    | .ok m => (s.publishMeasurement m).observe (.ok none)

/-- ODOM_TICK (44_events.md R184). -/
def execOdomTick (s : State) : Host.Outcome State Fault Refusal := .next (s.perform odomTickRule)

/-- The voltage of the latest frame (41_telemetry_decode.md R124), in the domain `NUMERIC` selects. -/
def voltage (s : State) : Num :=
  match s.par.numeric with
  | .binary64 => arithB64.toNum (decVolt arithB64 (frameBattery s.latestFrame))
  | .real => arithReal.toNum (decVolt arithReal (frameBattery s.latestFrame))

/-- BATT_TICK in RUN mode (44_events.md R185; DEC_CHECK of 41_telemetry_decode.md R121). -/
def battTickRule (s : State) : State :=
  if s.latestValid = false then s.skip .skipNoFrame
  else (s.publishVoltage (voltage s)).observe (.ok none)

/-- BATT_TICK (44_events.md R185). -/
def execBattTick (s : State) : Host.Outcome State Fault Refusal := .next (s.perform battTickRule)

end Sys2Proof.Machine
end

