-- ==== Sys2Proof/Machine/Dispatch.lean ====
section
/-! DEFINITION. The meaning of every instruction: one arm per constructor of Instr. -/

namespace Sys2Proof.Machine

def exec (i : Instr) (s : State) : Host.Outcome State Fault Refusal :=
  match i with
  | .rxByte b => Sys2Proof.Machine.execRxByte b s
  | .rxIdle => Sys2Proof.Machine.execRxIdle s
  | .setCmd vx vyaw => Sys2Proof.Machine.execSetCmd vx vyaw s
  | .odomTick => Sys2Proof.Machine.execOdomTick s
  | .battTick => Sys2Proof.Machine.execBattTick s
  | .cmdTick => Sys2Proof.Machine.execCmdTick s
  | .reset chanOk => Sys2Proof.Machine.execReset chanOk s
  | .reserved => Sys2Proof.Machine.execReserved s
  | .rxFrame vL vR bat => Sys2Proof.Machine.execRxFrame vL vR bat s
  | .txFrame lmag ldir rmag rdir => Sys2Proof.Machine.execTxFrame lmag ldir rmag rdir s

end Sys2Proof.Machine
end

