-- ==== Sys2Proof/Machine/Step.lean ====
section
/-! DEFINITION. One step: the next thing the environment does, a word being decoded and performed (44_events.md R180; log
entries 3, 4 and 5). -/

namespace Sys2Proof.Machine

/-- One step of ACB. With no input it waits; what a word that is no row of the opcode table does, `takeNonRow` says. -/
def step (s : State) : Host.Outcome State Fault Refusal :=
  match s.fetch with
  | none => .next s.noEvent
  | some (.fixParameters p, s') => .next (s'.setEnvPar p)
  | some (.word w, s') =>
    match decode w with
    | .error e => .next (s'.takeNonRow e)
    | .ok i => exec i s'

/-- The table word of `nbits` bits delivered as the next input word. -/
def State.withFetchWord (s : State) (nbits w : Nat) : State := s.deliver (tableWord nbits w)

end Sys2Proof.Machine
end

