-- ==== Sys2Proof/Safety.lean ====
section
/-! DEFINITION. The terms the statements use: the invariant of the reachable states, what a transmit stream of whole legal
frames is, the observations and publications of a stream of received bytes, and the early-rejecting synchronizer that
40_synchronizer.md R108 allows. -/

namespace Sys2Proof.Machine

/-- The bytes are whole output frames that ACB can send (20_memory.md R52, 30_encoding.md R76). -/
def framesOk : List Byte → Bool
  | [] => true
  | h0 :: h1 :: _ :: ldir :: _ :: rdir :: rest =>
    h0 == Config.hdr0 && h1 == Config.hdr1 && dirByteOk ldir && dirByteOk rdir && framesOk rest
  | _ => false

/-- The register holds a finite number of the arithmetic domain (00_scope.md R12). -/
def numOk : Numeric → Num → Bool
  | .binary64, .b64 x => B64.isFinite x
  | .real, .real _ => true
  | .binary64, .real _ => false
  | .real, .b64 _ => false

/-- What holds in every state that a run from reset reaches. -/
structure State.Inv (s : State) : Prop where
  /-- A published frame has the header pair (10_state.md R25, 30_encoding.md R73). -/
  frameHeader : s.latestValid = true → s.latestFrame.extractLsb' 48 16 = 0xFFFE
  /-- Before the first publication the latest frame has its reset value (R22, R25). -/
  frameReset : s.latestValid = false → s.latestFrame = 0
  /-- Before the first successful ODOM_TICK the measured registers have their reset values (R22, R27). -/
  measReset : s.measValid = false → s.wheelWL = zeroNum s.par.numeric ∧ s.wheelWR = zeroNum s.par.numeric ∧
    s.measVx = zeroNum s.par.numeric ∧ s.measVyaw = zeroNum s.par.numeric
  /-- Before the first successful BATT_TICK the voltage has its reset value (R22, R28). -/
  voltReset : s.voltValid = false → s.volt = zeroNum s.par.numeric
  /-- Nothing but a finite number is ever published (60_exceptions.md R203). -/
  finite : numOk s.par.numeric s.wheelWL = true ∧ numOk s.par.numeric s.wheelWR = true ∧
    numOk s.par.numeric s.measVx = true ∧ numOk s.par.numeric s.measVyaw = true ∧ numOk s.par.numeric s.volt = true
  /-- The geometry registers hold the parameters (10_state.md R30). -/
  config : s.cfgSep = s.par.wheelSep ∧ s.cfgRadius = s.par.wheelRadius
  /-- TX is made of whole legal frames (20_memory.md R52, 30_encoding.md R76). -/
  frames : framesOk s.tx = true
  /-- A strobe of the last step leaves a valid latest frame (40_synchronizer.md R102, R111). -/
  strobe : ∀ o ∈ s.obs, o.framePub = true → s.latestValid = true
  /-- In FATAL every register still has its reset value (60_exceptions.md R206). -/
  fatal : s.mode = .fatal → s = s.resetRegisters s.par false

/-- DEC_WHEEL written out in binary64 (41_telemetry_decode.md R123). -/
def wheelSpeed (v : Nat) : B64 :=
  B64.mul (B64.div (B64.ofInt (((v : Int) - 500) * 100)) (B64.ofInt 1560)) 0x401921FB54442D18

/-- ENC_TICKS written out in binary64, before its finiteness test (43_command_encoder.md R161). -/
def wheelTicks (w : B64) : B64 := B64.div (B64.mul (B64.div w 0x401921FB54442D18) (B64.ofInt 1560)) (B64.ofInt 100)

/-- The magnitude byte of a tick value (43_command_encoder.md R163, R164): under TRUNC the integer part of the exact
`min(|t|, 255)`, under RNE the nearest integer to it. -/
def wheelMagnitude (q : MagQuant) (t : B64) : Byte :=
  match q with
  | .trunc => BitVec.ofNat 8 ⌊min |B64.toRat t| 255⌋.toNat
  | .rne => encQuant arithB64 .rne (encClamp arithB64 t)

/-- The direction bit of a tick value (43_command_encoder.md R162). -/
def wheelDirection (t : B64) : BitVec 1 := if 0 ≤ B64.toRat t then 1 else 0

/-- The tick value of a rational wheel speed over the reals, `w / (2π) × 1560 / 100` (43_command_encoder.md R161; 00_scope.md
R12; log entry 10). -/
def realTicks (w : ℚ) : PiRat := PiRat.mk' (w / 2 * 1560 / 100) (-1)

/-- The magnitude byte of a tick value over the reals (43_command_encoder.md R163, R164): the integer part of `min(|t|, 255)`,
or the nearest integer to it (log entry 11). -/
def realMagnitude (q : MagQuant) (t : PiRat) : Byte :=
  match q with
  | .trunc => BitVec.ofNat 8 (min (PiRat.absFloor t) 255)
  | .rne => if 255 ≤ PiRat.absFloor t then 255 else BitVec.ofNat 8 (PiRat.absNearestEven t)

/-- The direction bit over the reals: the sign of the tick value, which is that of the wheel speed (43_command_encoder.md
R162). -/
def realDirection (w : ℚ) : BitVec 1 := if 0 ≤ w then 1 else 0

/-- The observations of a stream of RX_BYTE events, and the state after it. -/
def feed : List Byte → State → List Observation × State
  | [], s => ([], s)
  | b :: bs, s =>
    match exec (.rxByte b) s with
    | .next t => (t.obs ++ (feed bs t).1, (feed bs t).2)
    | .fault _ => ([], s)
    | .refused _ => ([], s)

/-- For each byte of a stream of RX_BYTE events, the frame published in its step, if any (40_synchronizer.md R111). -/
def published : List Byte → State → List (Option (BitVec 64))
  | [], _ => []
  | b :: bs, s =>
    match exec (.rxByte b) s with
    | .next t => (if t.framePub then some t.latestFrame else none) :: published bs t
    | .fault _ => []
    | .refused _ => []

/-- The state after a list of instructions, performed in order (60_exceptions.md R207: none of them stops). -/
def performAll : List Instr → State → State
  | [], s => s
  | i :: is, s =>
    match exec i s with
    | .next t => performAll is t
    | .fault _ => s
    | .refused _ => s

/-- The instruction is a RESET (44_events.md R187). -/
def isReset : Instr → Bool
  | .rxByte _ => false
  | .rxIdle => false
  | .setCmd _ _ => false
  | .odomTick => false
  | .battTick => false
  | .cmdTick => false
  | .reset _ => true
  | .reserved => false
  | .rxFrame _ _ _ => false
  | .txFrame _ _ _ _ => false

/-- Performed in order, no instruction of the list is a RESET and none publishes a frame (44_events.md R191). -/
def publishesNothing : List Instr → State → Bool
  | [], _ => true
  | i :: is, s =>
    match exec i s with
    | .next t => !isReset i && !t.framePub && publishesNothing is t
    | .fault _ => false
    | .refused _ => false

/-- The header pair stands at some place of the bytes (40_synchronizer.md R107). -/
def hasHeaderPair : List Byte → Bool
  | a :: b :: rest => (a == Config.hdr0 && b == Config.hdr1) || hasHeaderPair (b :: rest)
  | _ => false

/-- Bytes packed big-endian into a frame (30_encoding.md R72). -/
def packBytes (bs : List Byte) : BitVec 64 := bs.foldl (fun acc b => (acc <<< 8) ||| b.setWidth 64) 0

/-- The early slip of 40_synchronizer.md R108: bytes are discarded for as long as two or more are held and the first two are
not the header pair. -/
def earlySlip : List Byte → List Byte
  | a :: b :: rest => if a = Config.hdr0 ∧ b = Config.hdr1 then a :: b :: rest else earlySlip (b :: rest)
  | bs => bs

/-- The frames that the early-rejecting synchronizer of R108 publishes from a held window, one entry for each byte. -/
def earlyPublished : List Byte → List Byte → List (Option (BitVec 64))
  | _, [] => []
  | held, b :: bs =>
    let w := earlySlip (held ++ [b])
    if w.length = 8 then some (packBytes w) :: earlyPublished [] bs else none :: earlyPublished w bs

end Sys2Proof.Machine
end

