-- ==== Sys2Proof/Certificates/Slice0/Obligations.lean ====
section
/-! DEFINITION. The statements for the provers. Each docstring names the rule of spec/ that the statement formalises; where
it rests on a choice of the model it names the log entry. -/

open Sys2Proof Sys2Proof.Machine

/-! ### Encoding -/

/-- R71, R72, R75, R79: the decoder reads back every well-formed instruction the encoder writes, every operand at every
value. -/
def Obligations.DecodeEncodeRoundTrip : Prop :=
  ∀ i : Instr, i.wellFormed = true → decode (encode i) = .ok i

/-- R71, R79: the code in bits [2:0] selects the event, the payload stands at its place, every other bit is ignored. -/
def Obligations.EventWordFields : Prop :=
  ∀ w : BitVec 131,
    (w.extractLsb' 0 3 = 0b000 → decode (.ev w) = .ok (.rxByte (w.extractLsb' 3 8))) ∧
    (w.extractLsb' 0 3 = 0b001 → decode (.ev w) = .ok .rxIdle) ∧
    (w.extractLsb' 0 3 = 0b010 → decode (.ev w) = .ok (.setCmd (w.extractLsb' 3 64) (w.extractLsb' 67 64))) ∧
    (w.extractLsb' 0 3 = 0b011 → decode (.ev w) = .ok .odomTick) ∧
    (w.extractLsb' 0 3 = 0b100 → decode (.ev w) = .ok .battTick) ∧
    (w.extractLsb' 0 3 = 0b101 → decode (.ev w) = .ok .cmdTick) ∧
    (w.extractLsb' 0 3 = 0b110 → decode (.ev w) = .ok (.reset (w.getLsbD 3))) ∧
    (w.extractLsb' 0 3 = 0b111 → decode (.ev w) = .ok .reserved)

/-- R73: eight bytes are a frame exactly if they start with the header pair, which is the mask test on the packed value. -/
def Obligations.InputFrameIffHeaderPair : Prop :=
  ∀ win : Vector Byte 8,
    ((win[0] = 0xFF ∧ win[1] = 0xFE) ↔ packWindow win &&& 0xFFFF000000000000 = 0xFFFE000000000000) ∧
    ((∃ i, decode (.rxf (packWindow win)) = .ok i) ↔ (win[0] = 0xFF ∧ win[1] = 0xFE))

/-- R76's mask on the packed value: a 48-bit word is an output frame ACB can send exactly if it passes it. -/
def Obligations.OutputFrameIffMask : Prop :=
  ∀ t : BitVec 48, (∃ i, decode (.txf t) = .ok i) ↔ t &&& 0xFFFF00FE00FE = 0xFFFE00000000

/-- R74: the three fields of an input frame from its bytes and from its 64-bit packing, each in 0..65535. -/
def Obligations.InputFrameFields : Prop :=
  ∀ win : Vector Byte 8,
    let w := packWindow win
    frameLeft w = win[2].toNat * 256 + win[3].toNat ∧ frameLeft w = (w.extractLsb' 32 16).toNat ∧
    frameRight w = win[4].toNat * 256 + win[5].toNat ∧ frameRight w = (w.extractLsb' 16 16).toNat ∧
    frameBattery w = win[6].toNat * 256 + win[7].toNat ∧ frameBattery w = (w.extractLsb' 0 16).toNat ∧
    frameLeft w ≤ 65535 ∧ frameRight w ≤ 65535 ∧ frameBattery w ≤ 65535

/-- The words of 95_test_vectors.md 2.5 and 2.7, written out from R71, R72, R75 and R79, decode to what they stand for. -/
def Obligations.WrittenWordsDecode : Prop :=
  decode (.ev 0x7F8) = .ok (.rxByte 0xFF) ∧ decode (.ev 0x1) = .ok .rxIdle ∧
  decode (.ev 0x1FF00000000000002) = .ok (.setCmd 0x3FE0000000000000 0) ∧
  decode (.ev 0x1FF800000000000000000000000000002) = .ok (.setCmd 0 0x3FF0000000000000) ∧
  decode (.ev 0x3) = .ok .odomTick ∧ decode (.ev 0x4) = .ok .battTick ∧ decode (.ev 0x5) = .ok .cmdTick ∧
  decode (.ev 0xE) = .ok (.reset true) ∧ decode (.ev 0x6) = .ok (.reset false) ∧ decode (.ev 0x7) = .ok .reserved ∧
  decode (.rxf 0xFFFE01F401F40190) = .ok (.rxFrame 500 500 400) ∧
  decode (.rxf 0xFEFF01F401F40190) = .error (.notAnInputFrame 0xFEFF01F401F40190) ∧
  decode (.txf 0xFFFE13011301) = .ok (.txFrame 19 1 19 1) ∧
  decode (.txf 0xFFFE13021301) = .error (.notAnOutputFrame 0xFFFE13021301)

/-! ### The step -/

/-- A step performs the instruction of the next input word, and nothing else. The input stream in State is the model's
choice (log entry 3). -/
def Obligations.StepRunsDecodedInstruction : Prop :=
  ∀ (s : State) (w : InputWord) (rest : List Input) (i : Instr),
    s.input = .word w :: rest → decode w = .ok i → step s = exec i { s with input := rest }

/-- The steps that perform no instruction. R217: with nothing to come ACB holds its state and nothing is observed (log entry
4). R234: the environment fixes the parameters of the next RESET, and ACB holds its state (log entry 5). R78, R103, R204:
eight bytes that are no input frame are received as the bytes they are (log entry 14). R52: a frame on the transmit side has no
effect, whatever its bytes (log entry 14). -/
def Obligations.StepWithoutInstruction : Prop :=
  (∀ s : State, s.input = [] → step s = .next { s with obs := [] }) ∧
  (∀ (s : State) (p : Params) (rest : List Input), s.input = .fixParameters p :: rest →
    step s = .next { s with envPar := p, input := rest, obs := [] }) ∧
  (∀ (s : State) (w : BitVec 64) (rest : List Input), s.input = .word (.rxf w) :: rest → w.extractLsb' 48 16 ≠ 0xFFFE →
    let run := feed [w.extractLsb' 56 8, w.extractLsb' 48 8, w.extractLsb' 40 8, w.extractLsb' 32 8, w.extractLsb' 24 8,
      w.extractLsb' 16 8, w.extractLsb' 8 8, w.extractLsb' 0 8] { s with input := rest }
    step s = .next { run.2 with obs := run.1 }) ∧
  (∀ (s : State) (t : BitVec 48) (rest : List Input), s.input = .word (.txf t) :: rest →
    t &&& 0xFFFF00FE00FE ≠ 0xFFFE00000000 → step s = .next { s with input := rest, obs := [] })

/-- A word delivered as the next one is what the very next step runs (log entry 3). -/
def Obligations.DeliveredWordRunsNext : Prop :=
  ∀ (s : State) (nbits w : Nat) (i : Instr),
    decodeTableWord nbits w = some i → step (s.withFetchWord nbits w) = exec i s

/-- R200, R207: every instruction gives a next state from every state, and every event exactly one observation. That there is
no fault is the model's reading (log entry 15), and so is what the two wire frames do (log entries 1 and 2). -/
def Obligations.EveryInstructionCompletes : Prop :=
  ∀ (i : Instr) (s : State), ∃ t, exec i s = .next t ∧ (i.isEvent = true → t.obs.length = 1)

/-! ### Receive -/

/-- R101: a byte is appended to the window; the eighth is checked in the same step. -/
def Obligations.RxByteFillsWindow : Prop :=
  ∀ (s : State) (b : Byte), s.mode = .run →
    (∀ h : s.winN.val + 1 < 8, exec (.rxByte b) s =
      .next { s with win := s.win.set s.winN b, winN := ⟨s.winN.val + 1, h⟩, obs := [⟨.ok (some .fill), false⟩] }) ∧
    (s.winN = 7 → exec (.rxByte b) s = .next (syncCheck { s with win := s.win.set 7 b }))

/-- R102: a full window with the header pair is published whole and emptied. That the cells of the emptied window keep the
eight bytes is the model's reading (log entry 13). -/
def Obligations.RxByteAcceptsFrame : Prop :=
  ∀ (s : State) (b : Byte), s.mode = .run → s.winN = 7 → s.win[0] = 0xFF → s.win[1] = 0xFE →
    exec (.rxByte b) s = .next { s with
      win := s.win.set 7 b
      winN := 0
      latestFrame := s.win[0] ++ s.win[1] ++ s.win[2] ++ s.win[3] ++ s.win[4] ++ s.win[5] ++ s.win[6] ++ b
      latestValid := true
      obs := [⟨.ok (some .accept), true⟩] }

/-- R103: a full window without the header pair loses its oldest byte and keeps the other seven in order. That the eighth cell
keeps the byte it held is the model's reading (log entry 13). -/
def Obligations.RxByteSlipsOneByte : Prop :=
  ∀ (s : State) (b : Byte), s.mode = .run → s.winN = 7 → ¬(s.win[0] = 0xFF ∧ s.win[1] = 0xFE) →
    exec (.rxByte b) s = .next { s with
      win := #v[s.win[1], s.win[2], s.win[3], s.win[4], s.win[5], s.win[6], b, b]
      winN := 7
      obs := [⟨.ok (some .slip), false⟩] }

/-- R104: an idle event changes nothing, or empties the window if RX_IDLE_FLUSH. -/
def Obligations.RxIdleKeepsOrFlushes : Prop :=
  ∀ s : State, s.mode = .run →
    exec .rxIdle s =
      .next { s with winN := if s.par.rxIdleFlush then 0 else s.winN, obs := [⟨.ok none, false⟩] }

/-- R82 (log entry 1): an input frame is the reception of its eight bytes, from any state. -/
def Obligations.RxFrameIsEightBytes : Prop :=
  ∀ (s : State) (vL vR bat : BitVec 16),
    let run := feed [0xFF, 0xFE, vL.extractLsb' 8 8, vL.extractLsb' 0 8, vR.extractLsb' 8 8, vR.extractLsb' 0 8,
      bat.extractLsb' 8 8, bat.extractLsb' 0 8] s
    exec (.rxFrame vL vR bat) s = .next { run.2 with obs := run.1 }

/-- R102, R82 (log entry 1): an input frame that finds the window empty is published. That the cells of the emptied window
keep the eight bytes is the model's reading (log entry 13). -/
def Obligations.RxFramePublishedWhenAligned : Prop :=
  ∀ (s : State) (vL vR bat : BitVec 16), s.mode = .run → s.winN = 0 →
    exec (.rxFrame vL vR bat) s = .next { s with
      win := #v[0xFF, 0xFE, vL.extractLsb' 8 8, vL.extractLsb' 0 8, vR.extractLsb' 8 8, vR.extractLsb' 0 8,
        bat.extractLsb' 8 8, bat.extractLsb' 0 8]
      winN := 0
      latestFrame := 0xFFFE#16 ++ vL ++ vR ++ bat
      latestValid := true
      obs := List.replicate 7 ⟨.ok (some .fill), false⟩ ++ [⟨.ok (some .accept), true⟩] }

/-- R111: the strobe fires exactly in a step that accepts a frame. -/
def Obligations.StrobeExactlyOnAccept : Prop :=
  ∀ (i : Instr) (s t : State), i.isEvent = true → exec i s = .next t →
    (t.framePub = true ↔
      (∃ b, i = .rxByte b) ∧ s.mode = .run ∧ s.winN = 7 ∧ s.win[0] = 0xFF ∧ s.win[1] = 0xFE)

/-- R112: no event but an accept and RESET writes the latest frame. -/
def Obligations.LatestFrameStaysUntilSuperseded : Prop :=
  ∀ (i : Instr) (s t : State), i.isEvent = true → (∀ c, i ≠ .reset c) → exec i s = .next t → t.framePub = false →
    t.latestFrame = s.latestFrame ∧ t.latestValid = s.latestValid

/-- R24, R106: from an empty window, the window holds the last `WIN_N` bytes of the stream, oldest first. -/
def Obligations.WindowHoldsStreamSuffix : Prop :=
  ∀ (bs : List Byte) (s : State), s.mode = .run → s.winN = 0 →
    let t := (feed bs s).2
    t.win.toList.take t.winN = bs.drop (bs.length - t.winN)

/-- R107: noise without a header pair costs one slip a byte, and the frame after it is the first one published, in the step
that delivers its last byte; the noise 0xFF, 0xFE makes the synchronizer publish a straddling frame instead. -/
def Obligations.SyncRecoversAfterNoise : Prop :=
  ∀ (s : State) (payload : List Byte), s.mode = .run → s.winN = 0 → payload.length = 6 →
    (∀ noise rest : List Byte, hasHeaderPair noise = false →
      (published (noise ++ (0xFF :: 0xFE :: payload) ++ rest) s).take (noise.length + 8) =
        List.replicate (noise.length + 7) none ++ [some (packBytes (0xFF :: 0xFE :: payload))] ∧
      (feed (noise ++ (0xFF :: 0xFE :: payload)) s).1.countP (fun o => o.outcome == .ok (some .slip)) = noise.length) ∧
    published ([0xFF, 0xFE] ++ (0xFF :: 0xFE :: payload)) s =
      List.replicate 7 none ++ [some (packBytes ([0xFF, 0xFE, 0xFF, 0xFE] ++ payload.take 4)), none, none]

/-- R108: the synchronizer that rejects a window as soon as its first two bytes are known publishes the same frames, each
in the same step. -/
def Obligations.EarlyRejectionPublishesTheSame : Prop :=
  ∀ (bs : List Byte) (s : State), s.mode = .run → s.winN = 0 → published bs s = earlyPublished [] bs

/-- R110: back-to-back frames are all published, in order, without a slip. -/
def Obligations.LockedTrackingPublishesEveryFrame : Prop :=
  ∀ (fs : List (BitVec 16 × BitVec 16 × BitVec 16)) (s : State), s.mode = .run → s.winN = 0 →
    let stream := fs.flatMap (fun f => (rxFrameBytes f.1 f.2.1 f.2.2).toList)
    published stream s =
      fs.flatMap (fun f => List.replicate 7 none ++ [some (0xFFFE#16 ++ f.1 ++ f.2.1 ++ f.2.2)]) ∧
    (feed stream s).1.countP (fun o => o.outcome == .ok (some .slip)) = 0

/-! ### Arithmetic -/

/-- R12: `fl(e)` is a binary64 number nearest to `e`. -/
def Obligations.RoundingIsNearest : Prop :=
  ∀ (z : Bool) (e : ℚ) (y : B64), B64.isFinite (B64.fl z e) = true → B64.isFinite y = true →
    |B64.toRat (B64.fl z e) - e| ≤ |B64.toRat y - e|

/-- R12: of two nearest numbers `fl(e)` is the one with an even significand. -/
def Obligations.RoundingTiesToEven : Prop :=
  ∀ (z : Bool) (e : ℚ) (y : B64), B64.isFinite (B64.fl z e) = true → B64.isFinite y = true →
    |B64.toRat (B64.fl z e) - e| = |B64.toRat y - e| → B64.toRat y ≠ B64.toRat (B64.fl z e) →
    (B64.fl z e).getLsbD 0 = false

/-- R12: a number that binary64 has is not changed by rounding. -/
def Obligations.RoundingKeepsRepresentable : Prop :=
  ∀ (z : Bool) (y : B64), B64.isFinite y = true → B64.isZero y = false → B64.fl z (B64.toRat y) = y

/-- R12: rounding overflows exactly from half a quantum beyond the largest finite number. -/
def Obligations.RoundingOverflowThreshold : Prop :=
  ∀ (z : Bool) (e : ℚ), B64.isFinite (B64.fl z e) = true ↔ |e| < 2 ^ 1024 - 2 ^ 970

/-- R12: each of the four operators on finite operands gives a number nearest to the exact result. -/
def Obligations.OperatorsCorrectlyRounded : Prop :=
  ∀ x y z : B64, B64.isFinite x = true → B64.isFinite y = true → B64.isFinite z = true →
    (B64.isFinite (B64.add x y) = true →
      |B64.toRat (B64.add x y) - (B64.toRat x + B64.toRat y)| ≤ |B64.toRat z - (B64.toRat x + B64.toRat y)|) ∧
    (B64.isFinite (B64.sub x y) = true →
      |B64.toRat (B64.sub x y) - (B64.toRat x - B64.toRat y)| ≤ |B64.toRat z - (B64.toRat x - B64.toRat y)|) ∧
    (B64.isFinite (B64.mul x y) = true →
      |B64.toRat (B64.mul x y) - B64.toRat x * B64.toRat y| ≤ |B64.toRat z - B64.toRat x * B64.toRat y|) ∧
    (B64.isZero y = false → B64.isFinite (B64.div x y) = true →
      |B64.toRat (B64.div x y) - B64.toRat x / B64.toRat y| ≤ |B64.toRat z - B64.toRat x / B64.toRat y|)

/-! ### Telemetry and forward kinematics -/

/-- R123: DEC_WHEEL is odd-symmetric about 500 and gives +0.0 there. -/
def Obligations.WheelSpeedOddSymmetric : Prop :=
  decWheel arithB64 500 = 0 ∧
  ∀ j : Nat, 0 < j → j ≤ 500 → decWheel arithB64 (500 + j) = B64.negate (decWheel arithB64 (500 - j))

/-- R123: every speed field decodes to a finite speed, and a larger field never to a smaller speed. -/
def Obligations.WheelSpeedFiniteMonotone : Prop :=
  ∀ v v' : Nat, v ≤ v' → v' < 65536 →
    B64.isFinite (decWheel arithB64 v) = true ∧
    B64.toRat (decWheel arithB64 v) ≤ B64.toRat (decWheel arithB64 v')

/-- R185, R124, R202: its encoding; before any frame a BATT_TICK is skipped; after one it publishes `fl(b / 100)` of the two battery
bytes. -/
def Obligations.BattTickOutcome : Prop :=
  (∀ w : BitVec 131, w.extractLsb' 0 3 = 0b100 → decode (.ev w) = .ok .battTick) ∧
  ∀ s : State, s.mode = .run → s.par.numeric = .binary64 →
    (s.latestValid = false → exec .battTick s = .next { s with obs := [⟨.skipNoFrame, false⟩] }) ∧
    (s.latestValid = true → exec .battTick s = .next { s with
      volt := .b64 (B64.fl false (((s.latestFrame.extractLsb' 0 16).toNat : ℚ) / 100))
      voltValid := true
      obs := [⟨.ok none, false⟩] })

/-- R184 with R121, R125, R141, R203: its encoding, and what an ODOM_TICK does, in the order of its checks. -/
def Obligations.OdomTickOutcome : Prop :=
  (∀ w : BitVec 131, w.extractLsb' 0 3 = 0b011 → decode (.ev w) = .ok .odomTick) ∧
  ∀ s : State, s.mode = .run → s.par.numeric = .binary64 →
    let wl := wheelSpeed (s.latestFrame.extractLsb' 32 16).toNat
    let wr := wheelSpeed (s.latestFrame.extractLsb' 16 16).toNat
    let vl := B64.mul wl s.cfgRadius
    let vr := B64.mul wr s.cfgRadius
    let vx := B64.div (B64.add vr vl) (B64.ofInt 2)
    let vyaw := B64.div (B64.sub vr vl) s.cfgSep
    exec .odomTick s = .next (
      if s.latestValid = false then { s with obs := [⟨.skipNoFrame, false⟩] }
      else if ¬(B64.isFinite s.cfgRadius = true ∧ B64.isFinite s.cfgSep = true) then
        { s with obs := [⟨.skipArith .nonFinite, false⟩] }
      else if B64.isZero s.cfgSep = true then { s with obs := [⟨.skipArith .divZero, false⟩] }
      else if B64.isFinite vl = true ∧ B64.isFinite vr = true ∧ B64.isFinite vx = true ∧ B64.isFinite vyaw = true then
        { s with
          wheelWL := .b64 wl
          wheelWR := .b64 wr
          measVx := .b64 vx
          measVyaw := .b64 vyaw
          measValid := true
          obs := [⟨.ok none, false⟩] }
      else { s with obs := [⟨.skipArith .nonFinite, false⟩] })

/-- R141's corner case: equal wheel speeds give a zero yaw rate, for every finite non-zero separation and every radius for
which the solver does not skip. -/
def Obligations.EqualWheelSpeedsGiveZeroYaw : Prop :=
  ∀ w r l vx vyaw : B64, kinFwd arithB64 w w r l = .ok (vx, vyaw) → vyaw = B64.zero (B64.neg l)

/-- R141's corner case: opposite wheel speeds of equal magnitude give a linear speed of exactly +0.0. -/
def Obligations.OppositeWheelSpeedsGiveZeroLinear : Prop :=
  ∀ w r l vx vyaw : B64, kinFwd arithB64 (B64.negate w) w r l = .ok (vx, vyaw) → vx = 0

/-! ### Command encoding and inverse kinematics -/

/-- R162: the direction is the sign of the unclamped tick value, both zeros being forward; between −1 and 0 ticks it is
reverse although TRUNC sends the magnitude 0. -/
def Obligations.DirectionIsSignOfTicks : Prop :=
  (∀ t : B64, B64.isFinite t = true →
    encDir arithB64 t = if 0 ≤ B64.toRat t then (1 : BitVec 1) else 0) ∧
  (∀ (q : MagQuant) (w : B64) (mag : Byte) (dir : BitVec 1), encWheel arithB64 q w = .ok (mag, dir) →
    ∃ t, encTicks arithB64 w = .ok t ∧ dir = if 0 ≤ B64.toRat t then (1 : BitVec 1) else 0) ∧
  (∀ t : B64, B64.isFinite t = true → -1 < B64.toRat t → B64.toRat t < 0 →
    encDir arithB64 t = 0 ∧ encQuant arithB64 .trunc (encClamp arithB64 t) = 0)

/-- R169: from 255 ticks on the magnitude is 255 and the direction stays, under either quantisation; no magnitude is
larger. -/
def Obligations.SaturationKeepsDirection : Prop :=
  ∀ (q : MagQuant) (t : B64), B64.isFinite t = true →
    (255 ≤ B64.toRat t → encQuant arithB64 q (encClamp arithB64 t) = 255 ∧ encDir arithB64 t = 1) ∧
    (B64.toRat t ≤ -255 → encQuant arithB64 q (encClamp arithB64 t) = 255 ∧ encDir arithB64 t = 0) ∧
    B64.floor (encClamp arithB64 t) ≤ 255 ∧ B64.nearestEven (encClamp arithB64 t) ≤ 255

/-- R163: the clamped value is exactly the smaller of `|t|` and 255, and +0.0 for both zeros. -/
def Obligations.ClampedMagnitudeIsMinimum : Prop :=
  ∀ t : B64, B64.isFinite t = true →
    B64.isFinite (encClamp arithB64 t) = true ∧ B64.toRat (encClamp arithB64 t) = min |B64.toRat t| 255 ∧
    (B64.isZero t = true → encClamp arithB64 t = 0)

/-- R164: TRUNC sends the integer part of the clamped value, RNE the nearest integer to it, the even one of two. -/
def Obligations.QuantisedMagnitudeOfClampedTicks : Prop :=
  ∀ t : B64, B64.isFinite t = true →
    let m := B64.toRat (encClamp arithB64 t)
    let trunc := (encQuant arithB64 .trunc (encClamp arithB64 t)).toNat
    let rne := (encQuant arithB64 .rne (encClamp arithB64 t)).toNat
    ((trunc : ℚ) ≤ m ∧ m < trunc + 1) ∧ |(rne : ℚ) - m| ≤ 1 / 2 ∧ (|(rne : ℚ) - m| = 1 / 2 → rne % 2 = 0)

/-- R183: its encoding; a command is stored as given, whatever its bits. -/
def Obligations.SetCmdStoresPair : Prop :=
  (∀ w : BitVec 131, w.extractLsb' 0 3 = 0b010 →
    decode (.ev w) = .ok (.setCmd (w.extractLsb' 3 64) (w.extractLsb' 67 64))) ∧
  ∀ (s : State) (vx vyaw : B64), s.mode = .run →
    exec (.setCmd vx vyaw) s = .next { s with cmdVx := vx, cmdVyaw := vyaw, obs := [⟨.ok none, false⟩] }

/-- R186 with R142, R161 to R167, R203: its encoding, and what a CMD_TICK does, in the order of its checks. -/
def Obligations.CmdTickOutcome : Prop :=
  (∀ w : BitVec 131, w.extractLsb' 0 3 = 0b101 → decode (.ev w) = .ok .cmdTick) ∧
  ∀ s : State, s.mode = .run → s.par.numeric = .binary64 →
    let t := B64.mul (B64.div s.cfgSep (B64.ofInt 2)) s.cmdVyaw
    let wr := B64.div (B64.add s.cmdVx t) s.cfgRadius
    let wl := B64.div (B64.sub s.cmdVx t) s.cfgRadius
    let tl := wheelTicks wl
    let tr := wheelTicks wr
    let sent (c : WheelCommand) : List Byte := [0xFF, 0xFE, c.lmag, c.ldir.setWidth 8, c.rmag, c.rdir.setWidth 8]
    let skipped (cause : SubCause) : State := { s with
      tx := if s.par.cmdFaultPolicy = .resend then s.tx ++ sent s.wcmd else s.tx
      obs := [⟨.skipArith cause, false⟩] }
    let c : WheelCommand :=
      ⟨wheelMagnitude s.par.magQuant tl, wheelDirection tl, wheelMagnitude s.par.magQuant tr, wheelDirection tr⟩
    exec .cmdTick s = .next (
      if ¬(B64.isFinite s.cmdVx = true ∧ B64.isFinite s.cmdVyaw = true ∧ B64.isFinite s.cfgRadius = true ∧
          B64.isFinite s.cfgSep = true) then skipped .nonFinite
      else if B64.isZero s.cfgRadius = true then skipped .divZero
      else if ¬(B64.isFinite t = true ∧ B64.isFinite wr = true ∧ B64.isFinite wl = true) then skipped .nonFinite
      else if ¬(B64.isFinite tl = true ∧ B64.isFinite tr = true) then skipped .nonFinite
      else { s with wcmd := c, tx := s.tx ++ sent c, obs := [⟨.ok none, false⟩] })

/-- R168 and R186: with a zero command, of whatever signs, and any finite separation and finite non-zero radius, every
CMD_TICK sends the zero-command frame. -/
def Obligations.KeepAliveSendsZeroFrame : Prop :=
  ∀ s : State, s.mode = .run → s.par.numeric = .binary64 → B64.isZero s.cmdVx = true → B64.isZero s.cmdVyaw = true →
    B64.isFinite s.cfgSep = true → B64.isFinite s.cfgRadius = true → B64.isZero s.cfgRadius = false →
    exec .cmdTick s = .next { s with
      wcmd := ⟨0, 1, 0, 1⟩
      tx := s.tx ++ [0xFF, 0xFE, 0x00, 0x01, 0x00, 0x01]
      obs := [⟨.ok none, false⟩] }

/-- R76: whatever is sent is the six bytes, most significant first (R80), of a 48-bit word that passes the mask and is the
output frame of the wheel command held; only a CMD_TICK sends (R52). -/
def Obligations.SentFramesPassMask : Prop :=
  ∀ (i : Instr) (s t : State), exec i s = .next t →
    t.tx = s.tx ∨ (i = .cmdTick ∧ ∃ w : BitVec 48, w &&& 0xFFFF00FE00FE = 0xFFFE00000000 ∧
      decode (.txf w) =
        .ok (.txFrame t.wcmd.lmag (t.wcmd.ldir.setWidth 8) t.wcmd.rmag (t.wcmd.rdir.setWidth 8)) ∧
      t.tx = s.tx ++ [w.extractLsb' 40 8, w.extractLsb' 32 8, w.extractLsb' 24 8, w.extractLsb' 16 8, w.extractLsb' 8 8,
        w.extractLsb' 0 8])

/-- R52, R205 (log entry 2): an output frame on its way to the motor hardware changes nothing of ACB, in either mode. -/
def Obligations.TxFrameHasNoEffectOnAcb : Prop :=
  ∀ (s : State) (lmag ldir rmag rdir : Byte), exec (.txFrame lmag ldir rmag rdir) s = .next { s with obs := [] }

/-- 95_test_vectors.md DC-T3, KN-8, EN-T7: decoding one tick and converting back does not give one tick, and the binary64
solvers are not inverse bit by bit (R127, R143). -/
def Obligations.BinaryRoundTripsNotExact : Prop :=
  encTicks arithB64 (decWheel arithB64 501) = .ok 0x3FEFFFFFFFFFFFFF ∧
  kinInv arithB64 0x3FB999999999999A 0x3FD3333333333333 0x3FB0000000000000 0x3FD0000000000000 =
    .ok (0x3FF0000000000000, 0x400199999999999A) ∧
  kinFwd arithB64 0x3FF0000000000000 0x400199999999999A 0x3FB0000000000000 0x3FD0000000000000 =
    .ok (0x3FB999999999999A, 0x3FD3333333333334)

/-! ### NUMERIC = REAL (log entries 10 to 12) -/

/-- R143, for rational commands and geometry: over the reals the forward solver inverts the inverse solver. -/
def Obligations.RealKinematicsRoundTrip : Prop :=
  ∀ vx vyaw r l : ℚ, r ≠ 0 → l ≠ 0 →
    ∃ wl wr, kinInv arithReal (PiRat.ofRat vx) (PiRat.ofRat vyaw) (PiRat.ofRat r) (PiRat.ofRat l) = .ok (wl, wr) ∧
      kinFwd arithReal wl wr (PiRat.ofRat r) (PiRat.ofRat l) = .ok (PiRat.ofRat vx, PiRat.ofRat vyaw)

/-- R12, R184, R203: over the reals an ODOM_TICK skips only before any frame and for a zero separation, and otherwise
publishes the exact values. -/
def Obligations.RealOdomTickOutcome : Prop :=
  ∀ s : State, s.mode = .run → s.par.numeric = .real →
    let r := (PiRat.ofBits s.cfgRadius).coef
    let l := (PiRat.ofBits s.cfgSep).coef
    let wl : ℚ := (((s.latestFrame.extractLsb' 32 16).toNat : ℚ) - 500) * 100 / 1560 * 2
    let wr : ℚ := (((s.latestFrame.extractLsb' 16 16).toNat : ℚ) - 500) * 100 / 1560 * 2
    exec .odomTick s = .next (
      if s.latestValid = false then { s with obs := [⟨.skipNoFrame, false⟩] }
      else if l = 0 then { s with obs := [⟨.skipArith .divZero, false⟩] }
      else { s with
        wheelWL := .real (PiRat.mk' wl 1)
        wheelWR := .real (PiRat.mk' wr 1)
        measVx := .real (PiRat.mk' ((wr * r + wl * r) / 2) 1)
        measVyaw := .real (PiRat.mk' ((wr * r - wl * r) / l) 1)
        measValid := true
        obs := [⟨.ok none, false⟩] })

/-- R12, R185, R202: over the reals a BATT_TICK is skipped before any frame, and after one publishes exactly `b / 100` (log
entry 10). -/
def Obligations.RealBattTickOutcome : Prop :=
  ∀ s : State, s.mode = .run → s.par.numeric = .real →
    (s.latestValid = false → exec .battTick s = .next { s with obs := [⟨.skipNoFrame, false⟩] }) ∧
    (s.latestValid = true → exec .battTick s = .next { s with
      volt := .real ⟨((s.latestFrame.extractLsb' 0 16).toNat : ℚ) / 100, 0⟩
      voltValid := true
      obs := [⟨.ok none, false⟩] })

/-- R12, R186, R203 with R142, R161 to R164 read over the reals: a CMD_TICK fails exactly for a zero radius, and otherwise
stores and sends the encoding of the exact wheel speeds. The form of the tick values is log entry 10, the floor of a number
with a power of π log entry 11, and the value a non-finite operand stands for log entry 12. -/
def Obligations.RealCmdTickOutcome : Prop :=
  ∀ s : State, s.mode = .run → s.par.numeric = .real →
    let vx := (PiRat.ofBits s.cmdVx).coef
    let vyaw := (PiRat.ofBits s.cmdVyaw).coef
    let r := (PiRat.ofBits s.cfgRadius).coef
    let l := (PiRat.ofBits s.cfgSep).coef
    let wr := (vx + l / 2 * vyaw) / r
    let wl := (vx - l / 2 * vyaw) / r
    let sent (c : WheelCommand) : List Byte := [0xFF, 0xFE, c.lmag, c.ldir.setWidth 8, c.rmag, c.rdir.setWidth 8]
    let c : WheelCommand :=
      ⟨realMagnitude s.par.magQuant (realTicks wl), realDirection wl,
        realMagnitude s.par.magQuant (realTicks wr), realDirection wr⟩
    exec .cmdTick s = .next (
      if r = 0 then { s with
        tx := if s.par.cmdFaultPolicy = .resend then s.tx ++ sent s.wcmd else s.tx
        obs := [⟨.skipArith .divZero, false⟩] }
      else { s with wcmd := c, tx := s.tx ++ sent c, obs := [⟨.ok none, false⟩] })

/-! ### Skips, modes, reset -/

/-- R201: an event that ends in a skip writes no register, and sends nothing but the RESEND frame. -/
def Obligations.SkipCommitsNothing : Prop :=
  ∀ (i : Instr) (s t : State), exec i s = .next t →
    (t.obs = [⟨.skipNoFrame, false⟩] ∨ ∃ cause, t.obs = [⟨.skipArith cause, false⟩]) →
    t = { s with obs := t.obs, tx := t.tx } ∧
    (t.tx = s.tx ∨ (i = .cmdTick ∧ s.par.cmdFaultPolicy = .resend ∧ t.tx = s.tx ++ (encFrame s.wcmd).toList))

/-- R188: the reserved code, whatever its payload bits, has no effect but its outcome. -/
def Obligations.ReservedCodeRefused : Prop :=
  (∀ w : BitVec 131, w.extractLsb' 0 3 = 0b111 → decode (.ev w) = .ok .reserved) ∧
  ∀ s : State, s.mode = .run → exec .reserved s = .next { s with obs := [⟨.refused, false⟩] }

/-- R206: in FATAL every event but RESET is dead; a RESET with `chan_ok` = 0 enters FATAL and only a RESET leaves it. -/
def Obligations.FatalModeInert : Prop :=
  (∀ s : State, ∃ t, exec (.reset false) s = .next t ∧ t.mode = .fatal) ∧
  (∀ (i : Instr) (s : State), s.mode = .fatal → i.isEvent = true → (∀ c, i ≠ .reset c) →
    exec i s = .next { s with obs := [⟨.dead, false⟩] }) ∧
  (∀ (i : Instr) (s t : State), s.mode = .fatal → exec i s = .next t → t.mode = .run → i = .reset true)

/-- R206 with log entries 1 and 2: in FATAL an input frame is eight dead events, and an output frame is no event. -/
def Obligations.FatalModeDropsFrames : Prop :=
  ∀ s : State, s.mode = .fatal →
    (∀ vL vR bat, exec (.rxFrame vL vR bat) s = .next { s with obs := List.replicate 8 ⟨.dead, false⟩ }) ∧
    (∀ lmag ldir rmag rdir, exec (.txFrame lmag ldir rmag rdir) s = .next { s with obs := [] })

/-- R230: RESET, in either mode, sets every register to its reset value and sends nothing. The parameters are those that the
environment has fixed for it (R8, R234; log entry 5). -/
def Obligations.ResetSetsEveryRegister : Prop :=
  ∀ (s : State) (chanOk : Bool),
    exec (.reset chanOk) s = .next {
      mode := if chanOk = true then .run else .fatal
      win := #v[0, 0, 0, 0, 0, 0, 0, 0]
      winN := 0
      latestFrame := 0
      latestValid := false
      cmdVx := 0x0000000000000000
      cmdVyaw := 0x0000000000000000
      wheelWL := zeroNum s.envPar.numeric
      wheelWR := zeroNum s.envPar.numeric
      measVx := zeroNum s.envPar.numeric
      measVyaw := zeroNum s.envPar.numeric
      measValid := false
      volt := zeroNum s.envPar.numeric
      voltValid := false
      wcmd := ⟨0, 1, 0, 1⟩
      cfgSep := s.envPar.wheelSep
      cfgRadius := s.envPar.wheelRadius
      par := s.envPar
      envPar := s.envPar
      input := s.input
      tx := s.tx
      obs := [⟨if chanOk = true then .ok none else .dead, false⟩] }

/-- The reset state of the machine is what a RESET with `chan_ok` = 1 leaves, with the parameters of Config and nothing
delivered or sent (log entries 5, 6 and 7). -/
def Obligations.ResetStateIsAfterReset : Prop :=
  ∀ s : State, s.envPar = Config.params → s.input = [] → s.tx = [] → exec (.reset true) s = .next State.reset

/-! ### Whole-machine rules -/

/-- R22's column "written by", R52, R63: each register group has one writing event beside RESET (an input frame is RX_BYTE
events, log entry 1); the parameters change at a RESET only, to those the environment has fixed (R8; log entry 5), no
instruction writes what the environment holds, and only CMD_TICK sends. -/
def Obligations.EachRegisterHasOneWriter : Prop :=
  ∀ (i : Instr) (s t : State), exec i s = .next t →
    t.envPar = s.envPar ∧ t.input = s.input ∧ ((∃ c, i = .reset c) → t.par = s.envPar) ∧
    ((∀ c, i ≠ .reset c) →
      t.par = s.par ∧ t.mode = s.mode ∧ t.cfgSep = s.cfgSep ∧ t.cfgRadius = s.cfgRadius ∧
      ((∀ b, i ≠ .rxByte b) → (∀ a b c, i ≠ .rxFrame a b c) →
        t.win = s.win ∧ t.latestFrame = s.latestFrame ∧ t.latestValid = s.latestValid ∧
        (i ≠ .rxIdle → t.winN = s.winN)) ∧
      ((∀ a b, i ≠ .setCmd a b) → t.cmdVx = s.cmdVx ∧ t.cmdVyaw = s.cmdVyaw) ∧
      (i ≠ .odomTick → t.wheelWL = s.wheelWL ∧ t.wheelWR = s.wheelWR ∧ t.measVx = s.measVx ∧
        t.measVyaw = s.measVyaw ∧ t.measValid = s.measValid) ∧
      (i ≠ .battTick → t.volt = s.volt ∧ t.voltValid = s.voltValid) ∧
      (i ≠ .cmdTick → t.wcmd = s.wcmd)) ∧
    (i ≠ .cmdTick → t.tx = s.tx)

/-- R32: a valid bit, once set, is cleared only by RESET. -/
def Obligations.ValidBitsClearedOnlyByReset : Prop :=
  ∀ (i : Instr) (s t : State), (∀ c, i ≠ .reset c) → exec i s = .next t →
    (s.latestValid = true → t.latestValid = true) ∧ (s.measValid = true → t.measValid = true) ∧
    (s.voltValid = true → t.voltValid = true)

/-- R189: what a tick event does depends on no register another tick event writes. -/
def Obligations.TicksAreIndependent : Prop :=
  ∀ s₁ s₂ t₁ t₂ : State, s₁.mode = s₂.mode → s₁.par = s₂.par →
    (s₁.latestFrame = s₂.latestFrame → s₁.latestValid = s₂.latestValid →
      exec .battTick s₁ = .next t₁ → exec .battTick s₂ = .next t₂ →
      t₁.obs = t₂.obs ∧
      (t₁.obs = [⟨.ok none, false⟩] → t₁.volt = t₂.volt ∧ t₁.voltValid = t₂.voltValid)) ∧
    (s₁.latestFrame = s₂.latestFrame → s₁.latestValid = s₂.latestValid → s₁.cfgSep = s₂.cfgSep →
      s₁.cfgRadius = s₂.cfgRadius → exec .odomTick s₁ = .next t₁ → exec .odomTick s₂ = .next t₂ →
      t₁.obs = t₂.obs ∧
      (t₁.obs = [⟨.ok none, false⟩] → t₁.wheelWL = t₂.wheelWL ∧ t₁.wheelWR = t₂.wheelWR ∧
        t₁.measVx = t₂.measVx ∧ t₁.measVyaw = t₂.measVyaw ∧ t₁.measValid = t₂.measValid)) ∧
    (s₁.cmdVx = s₂.cmdVx → s₁.cmdVyaw = s₂.cmdVyaw → s₁.wcmd = s₂.wcmd → s₁.cfgSep = s₂.cfgSep →
      s₁.cfgRadius = s₂.cfgRadius → exec .cmdTick s₁ = .next t₁ → exec .cmdTick s₂ = .next t₂ →
      t₁.obs = t₂.obs ∧ t₁.wcmd = t₂.wcmd ∧ t₁.tx.drop s₁.tx.length = t₂.tx.drop s₂.tx.length)

/-- R56: every event but RX_BYTE and CMD_TICK is idempotent; a CMD_TICK repeated leaves the same state and sends the same
bytes again. -/
def Obligations.EventsIdempotent : Prop :=
  (∀ (i : Instr) (s t : State), i.isEvent = true → (∀ b, i ≠ .rxByte b) → i ≠ .cmdTick → exec i s = .next t →
    exec i t = .next t) ∧
  (∀ s t : State, exec .cmdTick s = .next t →
    exec .cmdTick t = .next { t with tx := t.tx ++ t.tx.drop s.tx.length })

/-- R191: for as long as no frame is published, whatever else but a RESET is performed, an ODOM_TICK and a BATT_TICK after it
have the outcome and publish the values that one before it has. -/
def Obligations.StaleTicksRepeat : Prop :=
  ∀ (is : List Instr) (s a b : State), publishesNothing is s = true →
    (exec .odomTick s = .next a → exec .odomTick (performAll is s) = .next b →
      a.obs = b.obs ∧
      (a.obs = [⟨.ok none, false⟩] → a.wheelWL = b.wheelWL ∧ a.wheelWR = b.wheelWR ∧ a.measVx = b.measVx ∧
        a.measVyaw = b.measVyaw ∧ a.measValid = b.measValid)) ∧
    (exec .battTick s = .next a → exec .battTick (performAll is s) = .next b →
      a.obs = b.obs ∧ (a.obs = [⟨.ok none, false⟩] → a.volt = b.volt ∧ a.voltValid = b.voltValid))

/-- The invariant `State.Inv` (R22, R25, R27, R28, R30, R52, R76, R203, R206) holds after reset. -/
def Obligations.ResetStateHasInvariant : Prop := State.Inv State.reset

/-- Every step, from any state that has it, keeps the invariant `State.Inv`: the latest frame has the header pair or has
never been published, the output registers are finite and at reset until first written, the geometry is the parameters',
TX is whole legal frames, and FATAL freezes the reset values. -/
def Obligations.EveryStepKeepsInvariant : Prop :=
  ∀ s t : State, s.Inv → step s = .next t → t.Inv
end

