-- ==== Sys2Proof/Laws/BitField.lean ====
section
/-! SUPPORT. Fields of a word that is built by appending: a field lies in the lower part, in the upper part, or is the whole. -/

namespace Sys2Proof

/-- A field inside the lower part of an append. -/
theorem extract_append_low {n m : Nat} (x : BitVec n) (y : BitVec m) (lo k : Nat) (h : lo + k ≤ m) :
    (x ++ y).extractLsb' lo k = y.extractLsb' lo k := by
  apply BitVec.eq_of_getLsbD_eq
  intro i hi
  have : lo + i < m := by omega
  simp [hi, BitVec.getLsbD_append, this]

/-- A field inside the upper part of an append. -/
theorem extract_append_high {n m : Nat} (x : BitVec n) (y : BitVec m) (lo k : Nat) :
    (x ++ y).extractLsb' (m + lo) k = x.extractLsb' lo k := by
  apply BitVec.eq_of_getLsbD_eq
  intro i hi
  have h1 : ¬ (m + lo + i < m) := by omega
  have h2 : m + lo + i - m = lo + i := by omega
  simp [hi, BitVec.getLsbD_append, h1, h2]

/-- The field that is the whole word. -/
theorem extract_all {n : Nat} (x : BitVec n) : x.extractLsb' 0 n = x := by
  apply BitVec.eq_of_getLsbD_eq
  intro i hi
  simp [hi]

/-- A field below the cut of a word whose width was extended. -/
theorem extract_setWidth {n w : Nat} (x : BitVec n) (lo k : Nat) (h : lo + k ≤ w) :
    (x.setWidth w).extractLsb' lo k = x.extractLsb' lo k := by
  apply BitVec.eq_of_getLsbD_eq
  intro i hi
  have : lo + i < w := by omega
  simp [hi, this]

/-- The code of an event word (30_encoding.md R71). -/
theorem eventWord_code {n : Nat} (p : BitVec n) (c : BitVec 3) : (eventWord p c).extractLsb' 0 3 = c := by
  rw [eventWord, extract_setWidth _ _ _ (by omega), extract_append_low _ _ _ _ (by omega), extract_all]

/-- A field of the payload of an event word (30_encoding.md R79). -/
theorem eventWord_payload {n : Nat} (p : BitVec n) (c : BitVec 3) (lo k : Nat) (h : lo + k ≤ 128) :
    (eventWord p c).extractLsb' (3 + lo) k = p.extractLsb' lo k := by
  rw [eventWord, extract_setWidth _ _ _ (by omega), extract_append_high]

/-- Two bytes appended, as a number (20_memory.md R57). -/
theorem toNat_append_bytes (hi lo : Byte) : (hi ++ lo).toNat = hi.toNat * 256 + lo.toNat := by
  rw [BitVec.toNat_append, Nat.shiftLeft_eq, Nat.mul_comm, ← Nat.two_pow_add_eq_or_of_lt lo.isLt, Nat.mul_comm]

/-- A mask acts on the two parts of an append separately. -/
theorem and_append {n m : Nat} (a b : BitVec n) (c d : BitVec m) : (a ++ c) &&& (b ++ d) = (a &&& b) ++ (c &&& d) := by
  apply BitVec.eq_of_getLsbD_eq
  intro i hi
  rcases Nat.lt_or_ge i m with h | h
  · simp [BitVec.getLsbD_append, h]
  · simp [BitVec.getLsbD_append, Nat.not_lt.mpr h]

/-- A masked word equals a constant exactly if the word agrees with it at every bit of the mask. -/
theorem and_eq_iff {n : Nat} (w m v : BitVec n) :
    w &&& m = v ↔ ∀ i, i < n → (w.getLsbD i && m.getLsbD i) = v.getLsbD i := by
  constructor
  · intro h i _
    rw [← h, BitVec.getLsbD_and]
  · intro h
    apply BitVec.eq_of_getLsbD_eq
    intro i hi
    rw [BitVec.getLsbD_and, h i hi]

end Sys2Proof
end

