-- ==== Sys2Proof/Laws/Binary64.lean ====
section
/-! SUPPORT. What the binary64 operations of Machine/Binary64.lean are, as statements about rationals: the fields of an
encoding, its value, and the one lemma about rounding that says everything `roundNat` does. -/

namespace Sys2Proof.Machine

/-! ### Fields -/

/-- The fields of an encoding built from a sign and 63 lower bits. -/
theorem B64.fields_ofSignMag (s : Bool) (m : Nat) (h : m < 2 ^ 63) :
    B64.neg (B64.ofSignMag s m) = s ∧ B64.expField (B64.ofSignMag s m) = m / 2 ^ 52 ∧
      B64.frac (B64.ofSignMag s m) = m % 2 ^ 52 := by
  refine ⟨?_, ?_, ?_⟩
  · have e : (B64.ofSignMag s m).msb = _ := BitVec.msb_append (x := BitVec.ofBool s) (y := BitVec.ofNat 63 m)
    rw [B64.neg, e]
    cases s <;> rfl
  · unfold B64.expField B64.ofSignMag
    rw [extract_append_low _ _ _ _ (by omega), BitVec.extractLsb'_toNat, BitVec.toNat_ofNat, Nat.mod_eq_of_lt h,
      Nat.shiftRight_eq_div_pow]
    exact Nat.mod_eq_of_lt (by omega)
  · unfold B64.frac B64.ofSignMag
    rw [extract_append_low _ _ _ _ (by omega), BitVec.extractLsb'_toNat, BitVec.toNat_ofNat, Nat.mod_eq_of_lt h]
    simp

/-- Every encoding is its sign and its 63 lower bits. -/
theorem B64.ofSignMag_fields (x : B64) : B64.ofSignMag (B64.neg x) (x.toNat % 2 ^ 63) = x := by
  apply BitVec.eq_of_getLsbD_eq
  intro i hi
  have e : (B64.ofSignMag (B64.neg x) (x.toNat % 2 ^ 63)).getLsbD i = _ :=
    BitVec.getLsbD_append (x := BitVec.ofBool (B64.neg x)) (y := BitVec.ofNat 63 (x.toNat % 2 ^ 63))
  rw [e]
  rcases Nat.lt_or_ge i 63 with h | h
  · rw [if_pos h, BitVec.getLsbD_ofNat, Nat.testBit_mod_two_pow]
    simp [h, BitVec.testBit_toNat]
  · obtain rfl : i = 63 := by omega
    simp [B64.neg, BitVec.msb_eq_getLsbD_last]

/-- The exponent and fraction fields of any encoding, from its 63 lower bits. -/
theorem B64.fields_eq (x : B64) :
    B64.expField x = x.toNat % 2 ^ 63 / 2 ^ 52 ∧ B64.frac x = x.toNat % 2 ^ 63 % 2 ^ 52 := by
  have h := B64.fields_ofSignMag (B64.neg x) (x.toNat % 2 ^ 63) (Nat.mod_lt _ (by norm_num))
  rw [B64.ofSignMag_fields] at h
  exact h.2

/-! ### Values -/

/-- `scale` as a power of two. -/
theorem B64.scale_eq (m : Nat) (e : Int) : B64.scale m e = m * (2 : ℚ) ^ e := by
  unfold B64.scale
  split
  · rename_i h
    obtain ⟨k, rfl⟩ := Int.eq_ofNat_of_zero_le h
    push_cast
    simp
  · rename_i h
    obtain ⟨k, hk⟩ := Int.eq_ofNat_of_zero_le (show (0 : Int) ≤ -e by omega)
    have : e = -(k : Int) := by omega
    subst this
    rw [Rat.mkRat_eq_div]
    simp [zpow_neg, div_eq_mul_inv]

/-- The value of 63 lower bits, of a subnormal or of a normal number. -/
def B64.magValue (m : Nat) : ℚ :=
  if m / 2 ^ 52 = 0 then (m % 2 ^ 52 : Nat) * (2 : ℚ) ^ (-1074 : Int)
  else (2 ^ 52 + m % 2 ^ 52 : Nat) * (2 : ℚ) ^ ((m / 2 ^ 52 : Nat) - 1075 : Int)

/-- The magnitude of an encoding is the value of its 63 lower bits. -/
theorem B64.magnitude_eq (x : B64) : B64.magnitude x = B64.magValue (x.toNat % 2 ^ 63) := by
  unfold B64.magnitude B64.magValue
  rw [(B64.fields_eq x).1, (B64.fields_eq x).2]
  split <;> rw [B64.scale_eq]

/-- A magnitude is not negative. -/
theorem B64.magnitude_nonneg (x : B64) : 0 ≤ B64.magnitude x := by
  rw [B64.magnitude_eq, B64.magValue]
  split <;> positivity

/-- The value of a significand `m` at the quantum `2 ^ q`, as an encoding: the exponent field counts the quanta above the
least, and a significand of 53 bits, or a carry out of it, adds to the exponent field. -/
theorem B64.magValue_pattern (q : Int) (m : Nat) (hq : -1074 ≤ q) (hm : m ≤ 2 ^ 53) (hn : q = -1074 ∨ 2 ^ 52 ≤ m) :
    B64.magValue ((q + 1074).toNat * 2 ^ 52 + m) = m * (2 : ℚ) ^ q := by
  obtain ⟨k, hk⟩ := Int.eq_ofNat_of_zero_le (show 0 ≤ q + 1074 by omega)
  have hk' : (q + 1074).toNat = k := by omega
  have hq' : q = (k : Int) - 1074 := by omega
  rw [hk']
  unfold B64.magValue
  rcases Nat.lt_or_ge m (2 ^ 52) with h | h
  · have hk0 : k = 0 := by omega
    subst hk0
    have h1 : (0 * 2 ^ 52 + m) / 2 ^ 52 = 0 := by omega
    have h2 : (0 * 2 ^ 52 + m) % 2 ^ 52 = m := by omega
    rw [if_pos h1, h2, hq']
    simp
  · rcases Nat.lt_or_ge m (2 ^ 53) with h' | h'
    · have h1 : (k * 2 ^ 52 + m) / 2 ^ 52 = k + 1 := by omega
      have h2 : 2 ^ 52 + (k * 2 ^ 52 + m) % 2 ^ 52 = m := by omega
      have h3 : (((k + 1 : Nat) : Int) - 1075) = (k : Int) - 1074 := by push_cast; ring
      rw [if_neg (by omega), h1, h2, h3, hq']
    · have h0 : m = 2 ^ 53 := by omega
      subst h0
      have h1 : (k * 2 ^ 52 + 2 ^ 53) / 2 ^ 52 = k + 2 := by omega
      have h2 : (k * 2 ^ 52 + 2 ^ 53) % 2 ^ 52 = 0 := by omega
      rw [if_neg (by omega), h1, h2, hq']
      have h3 : (((k + 2 : Nat) : Int) - 1075) = (k : Int) - 1074 + 1 := by push_cast; ring
      rw [h3, zpow_add₀ (by norm_num)]
      push_cast
      ring

/-! ### Rounding -/

/-- `floorLog2` is the integer part of the binary logarithm. -/
theorem B64.floorLog2_spec (n d : Nat) (hn : 0 < n) (hd : 0 < d) :
    (2 : ℚ) ^ B64.floorLog2 n d ≤ (n : ℚ) / d ∧ (n : ℚ) / d < (2 : ℚ) ^ (B64.floorLog2 n d + 1) := by
  have hd' : (0 : ℚ) < d := by exact_mod_cast hd
  have n1 : (2 : ℚ) ^ (n.log2 : Int) ≤ n := by exact_mod_cast Nat.log2_self_le hn.ne'
  have n2 : (n : ℚ) < (2 : ℚ) ^ ((n.log2 : Int) + 1) := by exact_mod_cast Nat.lt_log2_self (n := n)
  have d1 : (2 : ℚ) ^ (d.log2 : Int) ≤ d := by exact_mod_cast Nat.log2_self_le hd.ne'
  have d2 : (d : ℚ) < (2 : ℚ) ^ ((d.log2 : Int) + 1) := by exact_mod_cast Nat.lt_log2_self (n := d)
  -- the comparison that decides between the two candidates, over the rationals
  have key : ∀ l : Int, (n * 2 ^ (-l).toNat < d * 2 ^ l.toNat) ↔ (n : ℚ) / d < (2 : ℚ) ^ l := by
    intro l
    rw [div_lt_iff₀ hd', ← Nat.cast_lt (α := ℚ)]
    rcases le_total 0 l with h | h
    · obtain ⟨k, rfl⟩ := Int.eq_ofNat_of_zero_le h
      simp [mul_comm]
    · obtain ⟨k, hk⟩ := Int.eq_ofNat_of_zero_le (show (0 : Int) ≤ -l by omega)
      obtain rfl : l = -(k : Int) := by omega
      have hp : (0 : ℚ) < 2 ^ k := by positivity
      simp only [neg_neg, Int.toNat_natCast, Int.toNat_neg_natCast, pow_zero, mul_one, zpow_neg, zpow_natCast]
      push_cast
      rw [inv_mul_eq_div, lt_div_iff₀ hp]
  unfold B64.floorLog2
  simp only []
  split
  · rename_i h
    rw [key] at h
    refine ⟨?_, by simpa using h⟩
    rw [le_div_iff₀ hd']
    have e : (2 : ℚ) ^ (n.log2 : Int) =
        (2 : ℚ) ^ ((n.log2 : Int) - d.log2 - 1) * (2 : ℚ) ^ ((d.log2 : Int) + 1) := by
      rw [← zpow_add₀ (by norm_num)]
      congr 1
      ring
    have hp : (0 : ℚ) < (2 : ℚ) ^ ((n.log2 : Int) - d.log2 - 1) := by positivity
    nlinarith
  · rename_i h
    rw [key, not_lt] at h
    refine ⟨h, ?_⟩
    rw [div_lt_iff₀ hd']
    have e : (2 : ℚ) ^ ((n.log2 : Int) + 1) =
        (2 : ℚ) ^ ((n.log2 : Int) - d.log2 + 1) * (2 : ℚ) ^ (d.log2 : Int) := by
      rw [← zpow_add₀ (by norm_num)]
      congr 1
      ring
    have hp : (0 : ℚ) < (2 : ℚ) ^ ((n.log2 : Int) - d.log2 + 1) := by positivity
    nlinarith

/-- `divRne` is within half of the quotient, and even where it is exactly half away. -/
theorem B64.divRne_spec (n d : Nat) (hd : 0 < d) :
    |(B64.divRne n d : ℚ) - (n : ℚ) / d| ≤ 1 / 2 ∧
      (|(B64.divRne n d : ℚ) - (n : ℚ) / d| = 1 / 2 → B64.divRne n d % 2 = 0) := by
  have hd' : (0 : ℚ) < d := by exact_mod_cast hd
  have e : (n : ℚ) / d = (n / d : Nat) + ((n % d : Nat) : ℚ) / d := by
    rw [eq_comm, ← mul_right_inj' hd'.ne', mul_add, mul_div_cancel₀ _ hd'.ne', mul_div_cancel₀ _ hd'.ne']
    exact_mod_cast Nat.div_add_mod n d
  have r0 : (0 : ℚ) ≤ ((n % d : Nat) : ℚ) / d := by positivity
  have r1 : ((n % d : Nat) : ℚ) / d < 1 := by
    rw [div_lt_one hd']
    exact_mod_cast Nat.mod_lt n hd
  have half : ∀ a : Nat, ((a : ℚ) / d < 1 / 2 ↔ 2 * a < d) ∧ ((a : ℚ) / d = 1 / 2 ↔ 2 * a = d) := by
    intro a
    constructor
    · rw [div_lt_div_iff₀ hd' (by norm_num), one_mul, mul_comm]
      exact_mod_cast Iff.rfl
    · rw [div_eq_div_iff hd'.ne' (by norm_num), one_mul, mul_comm]
      exact_mod_cast Iff.rfl
  unfold B64.divRne
  simp only []
  split
  · rename_i h
    have h1 : (1 : ℚ) / 2 ≤ ((n % d : Nat) : ℚ) / d := by
      rw [← not_lt, (half _).1]
      omega
    rw [e]
    push_cast at *
    constructor
    · rw [abs_le]
      constructor <;> linarith
    · intro ha
      rw [abs_of_nonneg (by linarith)] at ha
      have : 2 * (n % d) = d := (half _).2.1 (by linarith)
      omega
  · rename_i h
    have h1 : ((n % d : Nat) : ℚ) / d ≤ 1 / 2 := by
      rcases lt_or_eq_of_le (show 2 * (n % d) ≤ d by omega) with h2 | h2
      · exact ((half _).1.2 h2).le
      · exact ((half _).2.2 h2).le
    rw [e]
    constructor
    · rw [abs_le]
      constructor <;> linarith
    · intro ha
      rw [abs_of_nonpos (by linarith)] at ha
      have : 2 * (n % d) = d := (half _).2.1 (by linarith)
      omega

/-- Everything `roundNat` does to a positive `n / d` (R12): a quantum `2 ^ q` at which the number has at most 53 bits, and
exactly 53 unless the quantum is the least; the significand `m` nearest to it, even where two are; the encoding of
`m * 2 ^ q`, or infinity where that has none. -/
theorem B64.roundNat_spec (n d : Nat) (hn : 0 < n) (hd : 0 < d) :
    ∃ (q : Int) (m : Nat), -1074 ≤ q ∧ m ≤ 2 ^ 53 ∧ (q = -1074 ∨ 2 ^ 52 ≤ m) ∧
      (q = -1074 ∨ (2 : ℚ) ^ 52 * (2 : ℚ) ^ q ≤ (n : ℚ) / d) ∧ (n : ℚ) / d < (2 : ℚ) ^ 53 * (2 : ℚ) ^ q ∧
      |(m : ℚ) - (n : ℚ) / d / (2 : ℚ) ^ q| ≤ 1 / 2 ∧
      (|(m : ℚ) - (n : ℚ) / d / (2 : ℚ) ^ q| = 1 / 2 → m % 2 = 0) ∧
      B64.roundNat n d = Min.min ((q + 1074).toNat * 2 ^ 52 + m) (2047 * 2 ^ 52) := by
  obtain ⟨l1, l2⟩ := B64.floorLog2_spec n d hn hd
  set q : Int := max (B64.floorLog2 n d - 52) (-1074) with hq
  have hd' : (0 : ℚ) < d := by exact_mod_cast hd
  have hp : (0 : ℚ) < (2 : ℚ) ^ q := by positivity
  -- the quotient that is rounded is the number in units of the quantum
  have units : ((n * 2 ^ (-q).toNat : Nat) : ℚ) / ((d * 2 ^ q.toNat : Nat) : ℚ) = (n : ℚ) / d / (2 : ℚ) ^ q := by
    rcases le_total 0 q with h | h
    · obtain ⟨k, hk⟩ := Int.eq_ofNat_of_zero_le h
      rw [hk]
      simp [div_div]
    · obtain ⟨k, hk⟩ := Int.eq_ofNat_of_zero_le (show (0 : Int) ≤ -q by omega)
      have hk' : q = -(k : Int) := by omega
      rw [hk']
      simp only [neg_neg, Int.toNat_natCast, Int.toNat_neg_natCast, pow_zero, mul_one, zpow_neg, zpow_natCast]
      push_cast
      rw [div_inv_eq_mul, div_mul_eq_mul_div]
  have low : q = -1074 ∨ (2 : ℚ) ^ 52 * (2 : ℚ) ^ q ≤ (n : ℚ) / d := by
    rcases le_total (B64.floorLog2 n d - 52) (-1074) with h | h
    · exact .inl (max_eq_right h)
    · right
      have hq' : q = B64.floorLog2 n d - 52 := max_eq_left h
      have e : (2 : ℚ) ^ 52 * (2 : ℚ) ^ q = (2 : ℚ) ^ B64.floorLog2 n d := by
        rw [← zpow_natCast (2 : ℚ) 52, ← zpow_add₀ (by norm_num), hq']
        congr 1
        push_cast
        ring
      rw [e]
      exact l1
  have high : (n : ℚ) / d < (2 : ℚ) ^ 53 * (2 : ℚ) ^ q := by
    refine lt_of_lt_of_le l2 ?_
    rw [← zpow_natCast (2 : ℚ) 53, ← zpow_add₀ (by norm_num)]
    refine zpow_le_zpow_right₀ (by norm_num) ?_
    push_cast
    omega
  have hD : 0 < d * 2 ^ q.toNat := by positivity
  obtain ⟨m1, m2⟩ := B64.divRne_spec (n * 2 ^ (-q).toNat) (d * 2 ^ q.toNat) hD
  rw [units] at m1 m2
  refine ⟨q, B64.divRne (n * 2 ^ (-q).toNat) (d * 2 ^ q.toNat), le_max_right _ _, ?_, ?_, low, high, m1, m2, ?_⟩
  · by_contra hc
    rw [not_le] at hc
    have hc' : (2 : ℚ) ^ 53 + 1 ≤ (B64.divRne (n * 2 ^ (-q).toNat) (d * 2 ^ q.toNat) : ℚ) := by exact_mod_cast hc
    have hx : (n : ℚ) / d / (2 : ℚ) ^ q < 2 ^ 53 := by rwa [div_lt_iff₀ hp]
    have := (abs_le.1 m1).2
    linarith
  · refine low.imp id fun h => ?_
    by_contra hc
    rw [not_le] at hc
    have hc' : (B64.divRne (n * 2 ^ (-q).toNat) (d * 2 ^ q.toNat) : ℚ) + 1 ≤ 2 ^ 52 := by exact_mod_cast hc
    have hx : (2 : ℚ) ^ 52 ≤ (n : ℚ) / d / (2 : ℚ) ^ q := by rwa [le_div_iff₀ hp]
    have := (abs_le.1 m1).1
    linarith
  · unfold B64.roundNat
    rw [if_neg hn.ne']

end Sys2Proof.Machine
end

