-- ==== Sys2Proof/Laws/PerInstr.lean ====
section
/-! SUPPORT. Statements for all instructions, made per instruction: the encoded word of every well-formed instruction passes
the mask and match of its row of spec/opcode_table.json. -/

namespace Sys2Proof.Laws

/-- The row of the opcode table that an instruction stands for, as the mask and match of its encoded word: the event code in
bits [2:0] (30_encoding.md R71), the header of an input frame (R73), the header and direction bytes of an output frame
(R76). -/
def TableMatch.Row : Instr → InputWord → Prop
  | .rxByte _, .ev w => w &&& 0x7 = 0x0
  | .rxIdle, .ev w => w &&& 0x7 = 0x1
  | .setCmd _ _, .ev w => w &&& 0x7 = 0x2
  | .odomTick, .ev w => w &&& 0x7 = 0x3
  | .battTick, .ev w => w &&& 0x7 = 0x4
  | .cmdTick, .ev w => w &&& 0x7 = 0x5
  | .reset _, .ev w => w &&& 0x7 = 0x6
  | .reserved, .ev w => w &&& 0x7 = 0x7
  | .rxFrame _ _ _, .rxf w => w &&& 0xFFFF000000000000 = 0xFFFE000000000000
  | .txFrame _ _ _ _, .txf w => w &&& 0xFFFF00FE00FE = 0xFFFE00000000
  | _, _ => False

/-- The encoded word of a well-formed instruction is a word of its row of the opcode table. -/
def TableMatch.Statement (i : Instr) : Prop := i.wellFormed = true → TableMatch.Row i (encode i)

/-- The mask of the event rows selects the code. -/
theorem eventWord_mask {n : Nat} (p : BitVec n) (c : BitVec 3) : eventWord p c &&& 0x7#131 = c.setWidth 131 := by
  have hm : ∀ i : Fin 131, (0x7#131).getLsbD i = decide (i.val < 3) := by decide
  apply BitVec.eq_of_getLsbD_eq
  intro i hi
  have he := congrArg (fun w => w.getLsbD i) (eventWord_code p c)
  rw [BitVec.getLsbD_and, hm ⟨i, hi⟩, BitVec.getLsbD_setWidth]
  rcases Nat.lt_or_ge i 3 with h | h
  · simpa [h, hi] using he
  · simp [h, Nat.not_lt.mpr h]

theorem TableMatch.rxByte (b : Byte) : TableMatch.Statement (.rxByte b) := fun _ => eventWord_mask b 0
theorem TableMatch.rxIdle : TableMatch.Statement .rxIdle := fun _ => eventWord_mask 0#0 1
theorem TableMatch.setCmd (vx vyaw : B64) : TableMatch.Statement (.setCmd vx vyaw) :=
  fun _ => eventWord_mask (vyaw ++ vx) 2
theorem TableMatch.odomTick : TableMatch.Statement .odomTick := fun _ => eventWord_mask 0#0 3
theorem TableMatch.battTick : TableMatch.Statement .battTick := fun _ => eventWord_mask 0#0 4
theorem TableMatch.cmdTick : TableMatch.Statement .cmdTick := fun _ => eventWord_mask 0#0 5
theorem TableMatch.reset (chanOk : Bool) : TableMatch.Statement (.reset chanOk) :=
  fun _ => eventWord_mask (BitVec.ofBool chanOk) 6
theorem TableMatch.reserved : TableMatch.Statement .reserved := fun _ => eventWord_mask 0#0 7

/-- The mask of the input frame's row selects the header pair. -/
theorem TableMatch.rxFrame (vL vR bat : BitVec 16) : TableMatch.Statement (.rxFrame vL vR bat) := by
  intro _
  show (0xFF#8 ++ 0xFE#8 ++ vL ++ vR ++ bat) &&& 0xFFFF000000000000#64 = 0xFFFE000000000000#64
  have e : 0xFFFF000000000000#64 = 0xFF#8 ++ 0xFF#8 ++ 0#16 ++ 0#16 ++ 0#16 := by decide
  rw [e]
  repeat rw [and_append]
  simp only [BitVec.and_zero]
  decide

/-- The mask of the output frame's row selects the header pair and the upper bits of the direction bytes. -/
theorem TableMatch.txFrame (lmag ldir rmag rdir : Byte) : TableMatch.Statement (.txFrame lmag ldir rmag rdir) := by
  intro h
  have hd : ∀ x : Byte, dirByteOk x = true → x &&& 0xFE#8 = 0#8 := by decide
  have h' : dirByteOk ldir = true ∧ dirByteOk rdir = true := by simpa [Instr.wellFormed] using h
  show (0xFF#8 ++ 0xFE#8 ++ lmag ++ ldir ++ rmag ++ rdir) &&& 0xFFFF00FE00FE#48 = 0xFFFE00000000#48
  have e : 0xFFFF00FE00FE#48 = 0xFF#8 ++ 0xFF#8 ++ 0#8 ++ 0xFE#8 ++ 0#8 ++ 0xFE#8 := by decide
  rw [e]
  repeat rw [and_append]
  rw [hd _ h'.1, hd _ h'.2, BitVec.and_zero, BitVec.and_zero]
  decide

end Sys2Proof.Laws
end

