-- ==== Sys2Proof/Laws/State.lean ====
section
/-! SUPPORT. One lemma per field per update of the state, each true by rfl, so that no proof unfolds a record update. -/

namespace Sys2Proof.Machine

@[simp] theorem State.observe_mode (s : State) (c : OutcomeCode) : (s.observe c).mode = s.mode := rfl
@[simp] theorem State.observe_win (s : State) (c : OutcomeCode) : (s.observe c).win = s.win := rfl
@[simp] theorem State.observe_winN (s : State) (c : OutcomeCode) : (s.observe c).winN = s.winN := rfl
@[simp] theorem State.observe_latestFrame (s : State) (c : OutcomeCode) : (s.observe c).latestFrame = s.latestFrame := rfl
@[simp] theorem State.observe_latestValid (s : State) (c : OutcomeCode) : (s.observe c).latestValid = s.latestValid := rfl
@[simp] theorem State.observe_cmdVx (s : State) (c : OutcomeCode) : (s.observe c).cmdVx = s.cmdVx := rfl
@[simp] theorem State.observe_cmdVyaw (s : State) (c : OutcomeCode) : (s.observe c).cmdVyaw = s.cmdVyaw := rfl
@[simp] theorem State.observe_wheelWL (s : State) (c : OutcomeCode) : (s.observe c).wheelWL = s.wheelWL := rfl
@[simp] theorem State.observe_wheelWR (s : State) (c : OutcomeCode) : (s.observe c).wheelWR = s.wheelWR := rfl
@[simp] theorem State.observe_measVx (s : State) (c : OutcomeCode) : (s.observe c).measVx = s.measVx := rfl
@[simp] theorem State.observe_measVyaw (s : State) (c : OutcomeCode) : (s.observe c).measVyaw = s.measVyaw := rfl
@[simp] theorem State.observe_measValid (s : State) (c : OutcomeCode) : (s.observe c).measValid = s.measValid := rfl
@[simp] theorem State.observe_volt (s : State) (c : OutcomeCode) : (s.observe c).volt = s.volt := rfl
@[simp] theorem State.observe_voltValid (s : State) (c : OutcomeCode) : (s.observe c).voltValid = s.voltValid := rfl
@[simp] theorem State.observe_wcmd (s : State) (c : OutcomeCode) : (s.observe c).wcmd = s.wcmd := rfl
@[simp] theorem State.observe_cfgSep (s : State) (c : OutcomeCode) : (s.observe c).cfgSep = s.cfgSep := rfl
@[simp] theorem State.observe_cfgRadius (s : State) (c : OutcomeCode) : (s.observe c).cfgRadius = s.cfgRadius := rfl
@[simp] theorem State.observe_par (s : State) (c : OutcomeCode) : (s.observe c).par = s.par := rfl
@[simp] theorem State.observe_envPar (s : State) (c : OutcomeCode) : (s.observe c).envPar = s.envPar := rfl
@[simp] theorem State.observe_input (s : State) (c : OutcomeCode) : (s.observe c).input = s.input := rfl
@[simp] theorem State.observe_tx (s : State) (c : OutcomeCode) : (s.observe c).tx = s.tx := rfl
@[simp] theorem State.observe_obs (s : State) (c : OutcomeCode) : (s.observe c).obs = [⟨c, false⟩] := rfl

@[simp] theorem State.observeAccept_mode (s : State) : s.observeAccept.mode = s.mode := rfl
@[simp] theorem State.observeAccept_win (s : State) : s.observeAccept.win = s.win := rfl
@[simp] theorem State.observeAccept_winN (s : State) : s.observeAccept.winN = s.winN := rfl
@[simp] theorem State.observeAccept_latestFrame (s : State) : s.observeAccept.latestFrame = s.latestFrame := rfl
@[simp] theorem State.observeAccept_latestValid (s : State) : s.observeAccept.latestValid = s.latestValid := rfl
@[simp] theorem State.observeAccept_cmdVx (s : State) : s.observeAccept.cmdVx = s.cmdVx := rfl
@[simp] theorem State.observeAccept_cmdVyaw (s : State) : s.observeAccept.cmdVyaw = s.cmdVyaw := rfl
@[simp] theorem State.observeAccept_wheelWL (s : State) : s.observeAccept.wheelWL = s.wheelWL := rfl
@[simp] theorem State.observeAccept_wheelWR (s : State) : s.observeAccept.wheelWR = s.wheelWR := rfl
@[simp] theorem State.observeAccept_measVx (s : State) : s.observeAccept.measVx = s.measVx := rfl
@[simp] theorem State.observeAccept_measVyaw (s : State) : s.observeAccept.measVyaw = s.measVyaw := rfl
@[simp] theorem State.observeAccept_measValid (s : State) : s.observeAccept.measValid = s.measValid := rfl
@[simp] theorem State.observeAccept_volt (s : State) : s.observeAccept.volt = s.volt := rfl
@[simp] theorem State.observeAccept_voltValid (s : State) : s.observeAccept.voltValid = s.voltValid := rfl
@[simp] theorem State.observeAccept_wcmd (s : State) : s.observeAccept.wcmd = s.wcmd := rfl
@[simp] theorem State.observeAccept_cfgSep (s : State) : s.observeAccept.cfgSep = s.cfgSep := rfl
@[simp] theorem State.observeAccept_cfgRadius (s : State) : s.observeAccept.cfgRadius = s.cfgRadius := rfl
@[simp] theorem State.observeAccept_par (s : State) : s.observeAccept.par = s.par := rfl
@[simp] theorem State.observeAccept_envPar (s : State) : s.observeAccept.envPar = s.envPar := rfl
@[simp] theorem State.observeAccept_input (s : State) : s.observeAccept.input = s.input := rfl
@[simp] theorem State.observeAccept_tx (s : State) : s.observeAccept.tx = s.tx := rfl
@[simp] theorem State.observeAccept_obs (s : State) : s.observeAccept.obs = [⟨.ok (some .accept), true⟩] := rfl

@[simp] theorem State.skip_mode (s : State) (c : OutcomeCode) : (s.skip c).mode = s.mode := rfl
@[simp] theorem State.skip_win (s : State) (c : OutcomeCode) : (s.skip c).win = s.win := rfl
@[simp] theorem State.skip_winN (s : State) (c : OutcomeCode) : (s.skip c).winN = s.winN := rfl
@[simp] theorem State.skip_latestFrame (s : State) (c : OutcomeCode) : (s.skip c).latestFrame = s.latestFrame := rfl
@[simp] theorem State.skip_latestValid (s : State) (c : OutcomeCode) : (s.skip c).latestValid = s.latestValid := rfl
@[simp] theorem State.skip_cmdVx (s : State) (c : OutcomeCode) : (s.skip c).cmdVx = s.cmdVx := rfl
@[simp] theorem State.skip_cmdVyaw (s : State) (c : OutcomeCode) : (s.skip c).cmdVyaw = s.cmdVyaw := rfl
@[simp] theorem State.skip_wheelWL (s : State) (c : OutcomeCode) : (s.skip c).wheelWL = s.wheelWL := rfl
@[simp] theorem State.skip_wheelWR (s : State) (c : OutcomeCode) : (s.skip c).wheelWR = s.wheelWR := rfl
@[simp] theorem State.skip_measVx (s : State) (c : OutcomeCode) : (s.skip c).measVx = s.measVx := rfl
@[simp] theorem State.skip_measVyaw (s : State) (c : OutcomeCode) : (s.skip c).measVyaw = s.measVyaw := rfl
@[simp] theorem State.skip_measValid (s : State) (c : OutcomeCode) : (s.skip c).measValid = s.measValid := rfl
@[simp] theorem State.skip_volt (s : State) (c : OutcomeCode) : (s.skip c).volt = s.volt := rfl
@[simp] theorem State.skip_voltValid (s : State) (c : OutcomeCode) : (s.skip c).voltValid = s.voltValid := rfl
@[simp] theorem State.skip_wcmd (s : State) (c : OutcomeCode) : (s.skip c).wcmd = s.wcmd := rfl
@[simp] theorem State.skip_cfgSep (s : State) (c : OutcomeCode) : (s.skip c).cfgSep = s.cfgSep := rfl
@[simp] theorem State.skip_cfgRadius (s : State) (c : OutcomeCode) : (s.skip c).cfgRadius = s.cfgRadius := rfl
@[simp] theorem State.skip_par (s : State) (c : OutcomeCode) : (s.skip c).par = s.par := rfl
@[simp] theorem State.skip_envPar (s : State) (c : OutcomeCode) : (s.skip c).envPar = s.envPar := rfl
@[simp] theorem State.skip_input (s : State) (c : OutcomeCode) : (s.skip c).input = s.input := rfl
@[simp] theorem State.skip_tx (s : State) (c : OutcomeCode) : (s.skip c).tx = s.tx := rfl
@[simp] theorem State.skip_obs (s : State) (c : OutcomeCode) : (s.skip c).obs = [⟨c, false⟩] := rfl

@[simp] theorem State.dead_mode (s : State) : s.dead.mode = s.mode := rfl
@[simp] theorem State.dead_win (s : State) : s.dead.win = s.win := rfl
@[simp] theorem State.dead_winN (s : State) : s.dead.winN = s.winN := rfl
@[simp] theorem State.dead_latestFrame (s : State) : s.dead.latestFrame = s.latestFrame := rfl
@[simp] theorem State.dead_latestValid (s : State) : s.dead.latestValid = s.latestValid := rfl
@[simp] theorem State.dead_cmdVx (s : State) : s.dead.cmdVx = s.cmdVx := rfl
@[simp] theorem State.dead_cmdVyaw (s : State) : s.dead.cmdVyaw = s.cmdVyaw := rfl
@[simp] theorem State.dead_wheelWL (s : State) : s.dead.wheelWL = s.wheelWL := rfl
@[simp] theorem State.dead_wheelWR (s : State) : s.dead.wheelWR = s.wheelWR := rfl
@[simp] theorem State.dead_measVx (s : State) : s.dead.measVx = s.measVx := rfl
@[simp] theorem State.dead_measVyaw (s : State) : s.dead.measVyaw = s.measVyaw := rfl
@[simp] theorem State.dead_measValid (s : State) : s.dead.measValid = s.measValid := rfl
@[simp] theorem State.dead_volt (s : State) : s.dead.volt = s.volt := rfl
@[simp] theorem State.dead_voltValid (s : State) : s.dead.voltValid = s.voltValid := rfl
@[simp] theorem State.dead_wcmd (s : State) : s.dead.wcmd = s.wcmd := rfl
@[simp] theorem State.dead_cfgSep (s : State) : s.dead.cfgSep = s.cfgSep := rfl
@[simp] theorem State.dead_cfgRadius (s : State) : s.dead.cfgRadius = s.cfgRadius := rfl
@[simp] theorem State.dead_par (s : State) : s.dead.par = s.par := rfl
@[simp] theorem State.dead_envPar (s : State) : s.dead.envPar = s.envPar := rfl
@[simp] theorem State.dead_input (s : State) : s.dead.input = s.input := rfl
@[simp] theorem State.dead_tx (s : State) : s.dead.tx = s.tx := rfl
@[simp] theorem State.dead_obs (s : State) : s.dead.obs = [⟨.dead, false⟩] := rfl

@[simp] theorem State.setLatestValid_mode (s : State) : s.setLatestValid.mode = s.mode := rfl
@[simp] theorem State.setLatestValid_win (s : State) : s.setLatestValid.win = s.win := rfl
@[simp] theorem State.setLatestValid_winN (s : State) : s.setLatestValid.winN = s.winN := rfl
@[simp] theorem State.setLatestValid_latestFrame (s : State) : s.setLatestValid.latestFrame = s.latestFrame := rfl
@[simp] theorem State.setLatestValid_latestValid (s : State) : s.setLatestValid.latestValid = true := rfl
@[simp] theorem State.setLatestValid_cmdVx (s : State) : s.setLatestValid.cmdVx = s.cmdVx := rfl
@[simp] theorem State.setLatestValid_cmdVyaw (s : State) : s.setLatestValid.cmdVyaw = s.cmdVyaw := rfl
@[simp] theorem State.setLatestValid_wheelWL (s : State) : s.setLatestValid.wheelWL = s.wheelWL := rfl
@[simp] theorem State.setLatestValid_wheelWR (s : State) : s.setLatestValid.wheelWR = s.wheelWR := rfl
@[simp] theorem State.setLatestValid_measVx (s : State) : s.setLatestValid.measVx = s.measVx := rfl
@[simp] theorem State.setLatestValid_measVyaw (s : State) : s.setLatestValid.measVyaw = s.measVyaw := rfl
@[simp] theorem State.setLatestValid_measValid (s : State) : s.setLatestValid.measValid = s.measValid := rfl
@[simp] theorem State.setLatestValid_volt (s : State) : s.setLatestValid.volt = s.volt := rfl
@[simp] theorem State.setLatestValid_voltValid (s : State) : s.setLatestValid.voltValid = s.voltValid := rfl
@[simp] theorem State.setLatestValid_wcmd (s : State) : s.setLatestValid.wcmd = s.wcmd := rfl
@[simp] theorem State.setLatestValid_cfgSep (s : State) : s.setLatestValid.cfgSep = s.cfgSep := rfl
@[simp] theorem State.setLatestValid_cfgRadius (s : State) : s.setLatestValid.cfgRadius = s.cfgRadius := rfl
@[simp] theorem State.setLatestValid_par (s : State) : s.setLatestValid.par = s.par := rfl
@[simp] theorem State.setLatestValid_envPar (s : State) : s.setLatestValid.envPar = s.envPar := rfl
@[simp] theorem State.setLatestValid_input (s : State) : s.setLatestValid.input = s.input := rfl
@[simp] theorem State.setLatestValid_tx (s : State) : s.setLatestValid.tx = s.tx := rfl
@[simp] theorem State.setLatestValid_obs (s : State) : s.setLatestValid.obs = s.obs := rfl

@[simp] theorem State.setMeasValid_mode (s : State) : s.setMeasValid.mode = s.mode := rfl
@[simp] theorem State.setMeasValid_win (s : State) : s.setMeasValid.win = s.win := rfl
@[simp] theorem State.setMeasValid_winN (s : State) : s.setMeasValid.winN = s.winN := rfl
@[simp] theorem State.setMeasValid_latestFrame (s : State) : s.setMeasValid.latestFrame = s.latestFrame := rfl
@[simp] theorem State.setMeasValid_latestValid (s : State) : s.setMeasValid.latestValid = s.latestValid := rfl
@[simp] theorem State.setMeasValid_cmdVx (s : State) : s.setMeasValid.cmdVx = s.cmdVx := rfl
@[simp] theorem State.setMeasValid_cmdVyaw (s : State) : s.setMeasValid.cmdVyaw = s.cmdVyaw := rfl
@[simp] theorem State.setMeasValid_wheelWL (s : State) : s.setMeasValid.wheelWL = s.wheelWL := rfl
@[simp] theorem State.setMeasValid_wheelWR (s : State) : s.setMeasValid.wheelWR = s.wheelWR := rfl
@[simp] theorem State.setMeasValid_measVx (s : State) : s.setMeasValid.measVx = s.measVx := rfl
@[simp] theorem State.setMeasValid_measVyaw (s : State) : s.setMeasValid.measVyaw = s.measVyaw := rfl
@[simp] theorem State.setMeasValid_measValid (s : State) : s.setMeasValid.measValid = true := rfl
@[simp] theorem State.setMeasValid_volt (s : State) : s.setMeasValid.volt = s.volt := rfl
@[simp] theorem State.setMeasValid_voltValid (s : State) : s.setMeasValid.voltValid = s.voltValid := rfl
@[simp] theorem State.setMeasValid_wcmd (s : State) : s.setMeasValid.wcmd = s.wcmd := rfl
@[simp] theorem State.setMeasValid_cfgSep (s : State) : s.setMeasValid.cfgSep = s.cfgSep := rfl
@[simp] theorem State.setMeasValid_cfgRadius (s : State) : s.setMeasValid.cfgRadius = s.cfgRadius := rfl
@[simp] theorem State.setMeasValid_par (s : State) : s.setMeasValid.par = s.par := rfl
@[simp] theorem State.setMeasValid_envPar (s : State) : s.setMeasValid.envPar = s.envPar := rfl
@[simp] theorem State.setMeasValid_input (s : State) : s.setMeasValid.input = s.input := rfl
@[simp] theorem State.setMeasValid_tx (s : State) : s.setMeasValid.tx = s.tx := rfl
@[simp] theorem State.setMeasValid_obs (s : State) : s.setMeasValid.obs = s.obs := rfl

@[simp] theorem State.setVoltValid_mode (s : State) : s.setVoltValid.mode = s.mode := rfl
@[simp] theorem State.setVoltValid_win (s : State) : s.setVoltValid.win = s.win := rfl
@[simp] theorem State.setVoltValid_winN (s : State) : s.setVoltValid.winN = s.winN := rfl
@[simp] theorem State.setVoltValid_latestFrame (s : State) : s.setVoltValid.latestFrame = s.latestFrame := rfl
@[simp] theorem State.setVoltValid_latestValid (s : State) : s.setVoltValid.latestValid = s.latestValid := rfl
@[simp] theorem State.setVoltValid_cmdVx (s : State) : s.setVoltValid.cmdVx = s.cmdVx := rfl
@[simp] theorem State.setVoltValid_cmdVyaw (s : State) : s.setVoltValid.cmdVyaw = s.cmdVyaw := rfl
@[simp] theorem State.setVoltValid_wheelWL (s : State) : s.setVoltValid.wheelWL = s.wheelWL := rfl
@[simp] theorem State.setVoltValid_wheelWR (s : State) : s.setVoltValid.wheelWR = s.wheelWR := rfl
@[simp] theorem State.setVoltValid_measVx (s : State) : s.setVoltValid.measVx = s.measVx := rfl
@[simp] theorem State.setVoltValid_measVyaw (s : State) : s.setVoltValid.measVyaw = s.measVyaw := rfl
@[simp] theorem State.setVoltValid_measValid (s : State) : s.setVoltValid.measValid = s.measValid := rfl
@[simp] theorem State.setVoltValid_volt (s : State) : s.setVoltValid.volt = s.volt := rfl
@[simp] theorem State.setVoltValid_voltValid (s : State) : s.setVoltValid.voltValid = true := rfl
@[simp] theorem State.setVoltValid_wcmd (s : State) : s.setVoltValid.wcmd = s.wcmd := rfl
@[simp] theorem State.setVoltValid_cfgSep (s : State) : s.setVoltValid.cfgSep = s.cfgSep := rfl
@[simp] theorem State.setVoltValid_cfgRadius (s : State) : s.setVoltValid.cfgRadius = s.cfgRadius := rfl
@[simp] theorem State.setVoltValid_par (s : State) : s.setVoltValid.par = s.par := rfl
@[simp] theorem State.setVoltValid_envPar (s : State) : s.setVoltValid.envPar = s.envPar := rfl
@[simp] theorem State.setVoltValid_input (s : State) : s.setVoltValid.input = s.input := rfl
@[simp] theorem State.setVoltValid_tx (s : State) : s.setVoltValid.tx = s.tx := rfl
@[simp] theorem State.setVoltValid_obs (s : State) : s.setVoltValid.obs = s.obs := rfl

@[simp] theorem State.publishFrame_mode (s : State) (f : BitVec 64) : (s.publishFrame f).mode = s.mode := rfl
@[simp] theorem State.publishFrame_win (s : State) (f : BitVec 64) : (s.publishFrame f).win = s.win := rfl
@[simp] theorem State.publishFrame_winN (s : State) (f : BitVec 64) : (s.publishFrame f).winN = s.winN := rfl
@[simp] theorem State.publishFrame_latestFrame (s : State) (f : BitVec 64) : (s.publishFrame f).latestFrame = f := rfl
@[simp] theorem State.publishFrame_latestValid (s : State) (f : BitVec 64) : (s.publishFrame f).latestValid = true := rfl
@[simp] theorem State.publishFrame_cmdVx (s : State) (f : BitVec 64) : (s.publishFrame f).cmdVx = s.cmdVx := rfl
@[simp] theorem State.publishFrame_cmdVyaw (s : State) (f : BitVec 64) : (s.publishFrame f).cmdVyaw = s.cmdVyaw := rfl
@[simp] theorem State.publishFrame_wheelWL (s : State) (f : BitVec 64) : (s.publishFrame f).wheelWL = s.wheelWL := rfl
@[simp] theorem State.publishFrame_wheelWR (s : State) (f : BitVec 64) : (s.publishFrame f).wheelWR = s.wheelWR := rfl
@[simp] theorem State.publishFrame_measVx (s : State) (f : BitVec 64) : (s.publishFrame f).measVx = s.measVx := rfl
@[simp] theorem State.publishFrame_measVyaw (s : State) (f : BitVec 64) : (s.publishFrame f).measVyaw = s.measVyaw := rfl
@[simp] theorem State.publishFrame_measValid (s : State) (f : BitVec 64) : (s.publishFrame f).measValid = s.measValid := rfl
@[simp] theorem State.publishFrame_volt (s : State) (f : BitVec 64) : (s.publishFrame f).volt = s.volt := rfl
@[simp] theorem State.publishFrame_voltValid (s : State) (f : BitVec 64) : (s.publishFrame f).voltValid = s.voltValid := rfl
@[simp] theorem State.publishFrame_wcmd (s : State) (f : BitVec 64) : (s.publishFrame f).wcmd = s.wcmd := rfl
@[simp] theorem State.publishFrame_cfgSep (s : State) (f : BitVec 64) : (s.publishFrame f).cfgSep = s.cfgSep := rfl
@[simp] theorem State.publishFrame_cfgRadius (s : State) (f : BitVec 64) : (s.publishFrame f).cfgRadius = s.cfgRadius := rfl
@[simp] theorem State.publishFrame_par (s : State) (f : BitVec 64) : (s.publishFrame f).par = s.par := rfl
@[simp] theorem State.publishFrame_envPar (s : State) (f : BitVec 64) : (s.publishFrame f).envPar = s.envPar := rfl
@[simp] theorem State.publishFrame_input (s : State) (f : BitVec 64) : (s.publishFrame f).input = s.input := rfl
@[simp] theorem State.publishFrame_tx (s : State) (f : BitVec 64) : (s.publishFrame f).tx = s.tx := rfl
@[simp] theorem State.publishFrame_obs (s : State) (f : BitVec 64) : (s.publishFrame f).obs = s.obs := rfl

@[simp] theorem State.publishCommand_mode (s : State) (vx vyaw : B64) : (s.publishCommand vx vyaw).mode = s.mode := rfl
@[simp] theorem State.publishCommand_win (s : State) (vx vyaw : B64) : (s.publishCommand vx vyaw).win = s.win := rfl
@[simp] theorem State.publishCommand_winN (s : State) (vx vyaw : B64) : (s.publishCommand vx vyaw).winN = s.winN := rfl
@[simp] theorem State.publishCommand_latestFrame (s : State) (vx vyaw : B64) : (s.publishCommand vx vyaw).latestFrame = s.latestFrame := rfl
@[simp] theorem State.publishCommand_latestValid (s : State) (vx vyaw : B64) : (s.publishCommand vx vyaw).latestValid = s.latestValid := rfl
@[simp] theorem State.publishCommand_cmdVx (s : State) (vx vyaw : B64) : (s.publishCommand vx vyaw).cmdVx = vx := rfl
@[simp] theorem State.publishCommand_cmdVyaw (s : State) (vx vyaw : B64) : (s.publishCommand vx vyaw).cmdVyaw = vyaw := rfl
@[simp] theorem State.publishCommand_wheelWL (s : State) (vx vyaw : B64) : (s.publishCommand vx vyaw).wheelWL = s.wheelWL := rfl
@[simp] theorem State.publishCommand_wheelWR (s : State) (vx vyaw : B64) : (s.publishCommand vx vyaw).wheelWR = s.wheelWR := rfl
@[simp] theorem State.publishCommand_measVx (s : State) (vx vyaw : B64) : (s.publishCommand vx vyaw).measVx = s.measVx := rfl
@[simp] theorem State.publishCommand_measVyaw (s : State) (vx vyaw : B64) : (s.publishCommand vx vyaw).measVyaw = s.measVyaw := rfl
@[simp] theorem State.publishCommand_measValid (s : State) (vx vyaw : B64) : (s.publishCommand vx vyaw).measValid = s.measValid := rfl
@[simp] theorem State.publishCommand_volt (s : State) (vx vyaw : B64) : (s.publishCommand vx vyaw).volt = s.volt := rfl
@[simp] theorem State.publishCommand_voltValid (s : State) (vx vyaw : B64) : (s.publishCommand vx vyaw).voltValid = s.voltValid := rfl
@[simp] theorem State.publishCommand_wcmd (s : State) (vx vyaw : B64) : (s.publishCommand vx vyaw).wcmd = s.wcmd := rfl
@[simp] theorem State.publishCommand_cfgSep (s : State) (vx vyaw : B64) : (s.publishCommand vx vyaw).cfgSep = s.cfgSep := rfl
@[simp] theorem State.publishCommand_cfgRadius (s : State) (vx vyaw : B64) : (s.publishCommand vx vyaw).cfgRadius = s.cfgRadius := rfl
@[simp] theorem State.publishCommand_par (s : State) (vx vyaw : B64) : (s.publishCommand vx vyaw).par = s.par := rfl
@[simp] theorem State.publishCommand_envPar (s : State) (vx vyaw : B64) : (s.publishCommand vx vyaw).envPar = s.envPar := rfl
@[simp] theorem State.publishCommand_input (s : State) (vx vyaw : B64) : (s.publishCommand vx vyaw).input = s.input := rfl
@[simp] theorem State.publishCommand_tx (s : State) (vx vyaw : B64) : (s.publishCommand vx vyaw).tx = s.tx := rfl
@[simp] theorem State.publishCommand_obs (s : State) (vx vyaw : B64) : (s.publishCommand vx vyaw).obs = s.obs := rfl

@[simp] theorem State.publishMeasurement_mode (s : State) (m : Measurement) : (s.publishMeasurement m).mode = s.mode := rfl
@[simp] theorem State.publishMeasurement_win (s : State) (m : Measurement) : (s.publishMeasurement m).win = s.win := rfl
@[simp] theorem State.publishMeasurement_winN (s : State) (m : Measurement) : (s.publishMeasurement m).winN = s.winN := rfl
@[simp] theorem State.publishMeasurement_latestFrame (s : State) (m : Measurement) : (s.publishMeasurement m).latestFrame = s.latestFrame := rfl
@[simp] theorem State.publishMeasurement_latestValid (s : State) (m : Measurement) : (s.publishMeasurement m).latestValid = s.latestValid := rfl
@[simp] theorem State.publishMeasurement_cmdVx (s : State) (m : Measurement) : (s.publishMeasurement m).cmdVx = s.cmdVx := rfl
@[simp] theorem State.publishMeasurement_cmdVyaw (s : State) (m : Measurement) : (s.publishMeasurement m).cmdVyaw = s.cmdVyaw := rfl
@[simp] theorem State.publishMeasurement_wheelWL (s : State) (m : Measurement) : (s.publishMeasurement m).wheelWL = m.wl := rfl
@[simp] theorem State.publishMeasurement_wheelWR (s : State) (m : Measurement) : (s.publishMeasurement m).wheelWR = m.wr := rfl
@[simp] theorem State.publishMeasurement_measVx (s : State) (m : Measurement) : (s.publishMeasurement m).measVx = m.vx := rfl
@[simp] theorem State.publishMeasurement_measVyaw (s : State) (m : Measurement) : (s.publishMeasurement m).measVyaw = m.vyaw := rfl
@[simp] theorem State.publishMeasurement_measValid (s : State) (m : Measurement) : (s.publishMeasurement m).measValid = true := rfl
@[simp] theorem State.publishMeasurement_volt (s : State) (m : Measurement) : (s.publishMeasurement m).volt = s.volt := rfl
@[simp] theorem State.publishMeasurement_voltValid (s : State) (m : Measurement) : (s.publishMeasurement m).voltValid = s.voltValid := rfl
@[simp] theorem State.publishMeasurement_wcmd (s : State) (m : Measurement) : (s.publishMeasurement m).wcmd = s.wcmd := rfl
@[simp] theorem State.publishMeasurement_cfgSep (s : State) (m : Measurement) : (s.publishMeasurement m).cfgSep = s.cfgSep := rfl
@[simp] theorem State.publishMeasurement_cfgRadius (s : State) (m : Measurement) : (s.publishMeasurement m).cfgRadius = s.cfgRadius := rfl
@[simp] theorem State.publishMeasurement_par (s : State) (m : Measurement) : (s.publishMeasurement m).par = s.par := rfl
@[simp] theorem State.publishMeasurement_envPar (s : State) (m : Measurement) : (s.publishMeasurement m).envPar = s.envPar := rfl
@[simp] theorem State.publishMeasurement_input (s : State) (m : Measurement) : (s.publishMeasurement m).input = s.input := rfl
@[simp] theorem State.publishMeasurement_tx (s : State) (m : Measurement) : (s.publishMeasurement m).tx = s.tx := rfl
@[simp] theorem State.publishMeasurement_obs (s : State) (m : Measurement) : (s.publishMeasurement m).obs = s.obs := rfl

@[simp] theorem State.publishVoltage_mode (s : State) (v : Num) : (s.publishVoltage v).mode = s.mode := rfl
@[simp] theorem State.publishVoltage_win (s : State) (v : Num) : (s.publishVoltage v).win = s.win := rfl
@[simp] theorem State.publishVoltage_winN (s : State) (v : Num) : (s.publishVoltage v).winN = s.winN := rfl
@[simp] theorem State.publishVoltage_latestFrame (s : State) (v : Num) : (s.publishVoltage v).latestFrame = s.latestFrame := rfl
@[simp] theorem State.publishVoltage_latestValid (s : State) (v : Num) : (s.publishVoltage v).latestValid = s.latestValid := rfl
@[simp] theorem State.publishVoltage_cmdVx (s : State) (v : Num) : (s.publishVoltage v).cmdVx = s.cmdVx := rfl
@[simp] theorem State.publishVoltage_cmdVyaw (s : State) (v : Num) : (s.publishVoltage v).cmdVyaw = s.cmdVyaw := rfl
@[simp] theorem State.publishVoltage_wheelWL (s : State) (v : Num) : (s.publishVoltage v).wheelWL = s.wheelWL := rfl
@[simp] theorem State.publishVoltage_wheelWR (s : State) (v : Num) : (s.publishVoltage v).wheelWR = s.wheelWR := rfl
@[simp] theorem State.publishVoltage_measVx (s : State) (v : Num) : (s.publishVoltage v).measVx = s.measVx := rfl
@[simp] theorem State.publishVoltage_measVyaw (s : State) (v : Num) : (s.publishVoltage v).measVyaw = s.measVyaw := rfl
@[simp] theorem State.publishVoltage_measValid (s : State) (v : Num) : (s.publishVoltage v).measValid = s.measValid := rfl
@[simp] theorem State.publishVoltage_volt (s : State) (v : Num) : (s.publishVoltage v).volt = v := rfl
@[simp] theorem State.publishVoltage_voltValid (s : State) (v : Num) : (s.publishVoltage v).voltValid = true := rfl
@[simp] theorem State.publishVoltage_wcmd (s : State) (v : Num) : (s.publishVoltage v).wcmd = s.wcmd := rfl
@[simp] theorem State.publishVoltage_cfgSep (s : State) (v : Num) : (s.publishVoltage v).cfgSep = s.cfgSep := rfl
@[simp] theorem State.publishVoltage_cfgRadius (s : State) (v : Num) : (s.publishVoltage v).cfgRadius = s.cfgRadius := rfl
@[simp] theorem State.publishVoltage_par (s : State) (v : Num) : (s.publishVoltage v).par = s.par := rfl
@[simp] theorem State.publishVoltage_envPar (s : State) (v : Num) : (s.publishVoltage v).envPar = s.envPar := rfl
@[simp] theorem State.publishVoltage_input (s : State) (v : Num) : (s.publishVoltage v).input = s.input := rfl
@[simp] theorem State.publishVoltage_tx (s : State) (v : Num) : (s.publishVoltage v).tx = s.tx := rfl
@[simp] theorem State.publishVoltage_obs (s : State) (v : Num) : (s.publishVoltage v).obs = s.obs := rfl

@[simp] theorem State.publishWheelCommand_mode (s : State) (c : WheelCommand) : (s.publishWheelCommand c).mode = s.mode := rfl
@[simp] theorem State.publishWheelCommand_win (s : State) (c : WheelCommand) : (s.publishWheelCommand c).win = s.win := rfl
@[simp] theorem State.publishWheelCommand_winN (s : State) (c : WheelCommand) : (s.publishWheelCommand c).winN = s.winN := rfl
@[simp] theorem State.publishWheelCommand_latestFrame (s : State) (c : WheelCommand) : (s.publishWheelCommand c).latestFrame = s.latestFrame := rfl
@[simp] theorem State.publishWheelCommand_latestValid (s : State) (c : WheelCommand) : (s.publishWheelCommand c).latestValid = s.latestValid := rfl
@[simp] theorem State.publishWheelCommand_cmdVx (s : State) (c : WheelCommand) : (s.publishWheelCommand c).cmdVx = s.cmdVx := rfl
@[simp] theorem State.publishWheelCommand_cmdVyaw (s : State) (c : WheelCommand) : (s.publishWheelCommand c).cmdVyaw = s.cmdVyaw := rfl
@[simp] theorem State.publishWheelCommand_wheelWL (s : State) (c : WheelCommand) : (s.publishWheelCommand c).wheelWL = s.wheelWL := rfl
@[simp] theorem State.publishWheelCommand_wheelWR (s : State) (c : WheelCommand) : (s.publishWheelCommand c).wheelWR = s.wheelWR := rfl
@[simp] theorem State.publishWheelCommand_measVx (s : State) (c : WheelCommand) : (s.publishWheelCommand c).measVx = s.measVx := rfl
@[simp] theorem State.publishWheelCommand_measVyaw (s : State) (c : WheelCommand) : (s.publishWheelCommand c).measVyaw = s.measVyaw := rfl
@[simp] theorem State.publishWheelCommand_measValid (s : State) (c : WheelCommand) : (s.publishWheelCommand c).measValid = s.measValid := rfl
@[simp] theorem State.publishWheelCommand_volt (s : State) (c : WheelCommand) : (s.publishWheelCommand c).volt = s.volt := rfl
@[simp] theorem State.publishWheelCommand_voltValid (s : State) (c : WheelCommand) : (s.publishWheelCommand c).voltValid = s.voltValid := rfl
@[simp] theorem State.publishWheelCommand_wcmd (s : State) (c : WheelCommand) : (s.publishWheelCommand c).wcmd = c := rfl
@[simp] theorem State.publishWheelCommand_cfgSep (s : State) (c : WheelCommand) : (s.publishWheelCommand c).cfgSep = s.cfgSep := rfl
@[simp] theorem State.publishWheelCommand_cfgRadius (s : State) (c : WheelCommand) : (s.publishWheelCommand c).cfgRadius = s.cfgRadius := rfl
@[simp] theorem State.publishWheelCommand_par (s : State) (c : WheelCommand) : (s.publishWheelCommand c).par = s.par := rfl
@[simp] theorem State.publishWheelCommand_envPar (s : State) (c : WheelCommand) : (s.publishWheelCommand c).envPar = s.envPar := rfl
@[simp] theorem State.publishWheelCommand_input (s : State) (c : WheelCommand) : (s.publishWheelCommand c).input = s.input := rfl
@[simp] theorem State.publishWheelCommand_tx (s : State) (c : WheelCommand) : (s.publishWheelCommand c).tx = s.tx := rfl
@[simp] theorem State.publishWheelCommand_obs (s : State) (c : WheelCommand) : (s.publishWheelCommand c).obs = s.obs := rfl

@[simp] theorem State.transmit_mode (s : State) (frame : Vector Byte Config.outLen) : (s.transmit frame).mode = s.mode := rfl
@[simp] theorem State.transmit_win (s : State) (frame : Vector Byte Config.outLen) : (s.transmit frame).win = s.win := rfl
@[simp] theorem State.transmit_winN (s : State) (frame : Vector Byte Config.outLen) : (s.transmit frame).winN = s.winN := rfl
@[simp] theorem State.transmit_latestFrame (s : State) (frame : Vector Byte Config.outLen) : (s.transmit frame).latestFrame = s.latestFrame := rfl
@[simp] theorem State.transmit_latestValid (s : State) (frame : Vector Byte Config.outLen) : (s.transmit frame).latestValid = s.latestValid := rfl
@[simp] theorem State.transmit_cmdVx (s : State) (frame : Vector Byte Config.outLen) : (s.transmit frame).cmdVx = s.cmdVx := rfl
@[simp] theorem State.transmit_cmdVyaw (s : State) (frame : Vector Byte Config.outLen) : (s.transmit frame).cmdVyaw = s.cmdVyaw := rfl
@[simp] theorem State.transmit_wheelWL (s : State) (frame : Vector Byte Config.outLen) : (s.transmit frame).wheelWL = s.wheelWL := rfl
@[simp] theorem State.transmit_wheelWR (s : State) (frame : Vector Byte Config.outLen) : (s.transmit frame).wheelWR = s.wheelWR := rfl
@[simp] theorem State.transmit_measVx (s : State) (frame : Vector Byte Config.outLen) : (s.transmit frame).measVx = s.measVx := rfl
@[simp] theorem State.transmit_measVyaw (s : State) (frame : Vector Byte Config.outLen) : (s.transmit frame).measVyaw = s.measVyaw := rfl
@[simp] theorem State.transmit_measValid (s : State) (frame : Vector Byte Config.outLen) : (s.transmit frame).measValid = s.measValid := rfl
@[simp] theorem State.transmit_volt (s : State) (frame : Vector Byte Config.outLen) : (s.transmit frame).volt = s.volt := rfl
@[simp] theorem State.transmit_voltValid (s : State) (frame : Vector Byte Config.outLen) : (s.transmit frame).voltValid = s.voltValid := rfl
@[simp] theorem State.transmit_wcmd (s : State) (frame : Vector Byte Config.outLen) : (s.transmit frame).wcmd = s.wcmd := rfl
@[simp] theorem State.transmit_cfgSep (s : State) (frame : Vector Byte Config.outLen) : (s.transmit frame).cfgSep = s.cfgSep := rfl
@[simp] theorem State.transmit_cfgRadius (s : State) (frame : Vector Byte Config.outLen) : (s.transmit frame).cfgRadius = s.cfgRadius := rfl
@[simp] theorem State.transmit_par (s : State) (frame : Vector Byte Config.outLen) : (s.transmit frame).par = s.par := rfl
@[simp] theorem State.transmit_envPar (s : State) (frame : Vector Byte Config.outLen) : (s.transmit frame).envPar = s.envPar := rfl
@[simp] theorem State.transmit_input (s : State) (frame : Vector Byte Config.outLen) : (s.transmit frame).input = s.input := rfl
@[simp] theorem State.transmit_tx (s : State) (frame : Vector Byte Config.outLen) : (s.transmit frame).tx = s.tx ++ frame.toList := rfl
@[simp] theorem State.transmit_obs (s : State) (frame : Vector Byte Config.outLen) : (s.transmit frame).obs = s.obs := rfl

@[simp] theorem State.noEvent_mode (s : State) : s.noEvent.mode = s.mode := rfl
@[simp] theorem State.noEvent_win (s : State) : s.noEvent.win = s.win := rfl
@[simp] theorem State.noEvent_winN (s : State) : s.noEvent.winN = s.winN := rfl
@[simp] theorem State.noEvent_latestFrame (s : State) : s.noEvent.latestFrame = s.latestFrame := rfl
@[simp] theorem State.noEvent_latestValid (s : State) : s.noEvent.latestValid = s.latestValid := rfl
@[simp] theorem State.noEvent_cmdVx (s : State) : s.noEvent.cmdVx = s.cmdVx := rfl
@[simp] theorem State.noEvent_cmdVyaw (s : State) : s.noEvent.cmdVyaw = s.cmdVyaw := rfl
@[simp] theorem State.noEvent_wheelWL (s : State) : s.noEvent.wheelWL = s.wheelWL := rfl
@[simp] theorem State.noEvent_wheelWR (s : State) : s.noEvent.wheelWR = s.wheelWR := rfl
@[simp] theorem State.noEvent_measVx (s : State) : s.noEvent.measVx = s.measVx := rfl
@[simp] theorem State.noEvent_measVyaw (s : State) : s.noEvent.measVyaw = s.measVyaw := rfl
@[simp] theorem State.noEvent_measValid (s : State) : s.noEvent.measValid = s.measValid := rfl
@[simp] theorem State.noEvent_volt (s : State) : s.noEvent.volt = s.volt := rfl
@[simp] theorem State.noEvent_voltValid (s : State) : s.noEvent.voltValid = s.voltValid := rfl
@[simp] theorem State.noEvent_wcmd (s : State) : s.noEvent.wcmd = s.wcmd := rfl
@[simp] theorem State.noEvent_cfgSep (s : State) : s.noEvent.cfgSep = s.cfgSep := rfl
@[simp] theorem State.noEvent_cfgRadius (s : State) : s.noEvent.cfgRadius = s.cfgRadius := rfl
@[simp] theorem State.noEvent_par (s : State) : s.noEvent.par = s.par := rfl
@[simp] theorem State.noEvent_envPar (s : State) : s.noEvent.envPar = s.envPar := rfl
@[simp] theorem State.noEvent_input (s : State) : s.noEvent.input = s.input := rfl
@[simp] theorem State.noEvent_tx (s : State) : s.noEvent.tx = s.tx := rfl
@[simp] theorem State.noEvent_obs (s : State) : s.noEvent.obs = [] := rfl

@[simp] theorem State.setEnvPar_mode (s : State) (p : Params) : (s.setEnvPar p).mode = s.mode := rfl
@[simp] theorem State.setEnvPar_win (s : State) (p : Params) : (s.setEnvPar p).win = s.win := rfl
@[simp] theorem State.setEnvPar_winN (s : State) (p : Params) : (s.setEnvPar p).winN = s.winN := rfl
@[simp] theorem State.setEnvPar_latestFrame (s : State) (p : Params) : (s.setEnvPar p).latestFrame = s.latestFrame := rfl
@[simp] theorem State.setEnvPar_latestValid (s : State) (p : Params) : (s.setEnvPar p).latestValid = s.latestValid := rfl
@[simp] theorem State.setEnvPar_cmdVx (s : State) (p : Params) : (s.setEnvPar p).cmdVx = s.cmdVx := rfl
@[simp] theorem State.setEnvPar_cmdVyaw (s : State) (p : Params) : (s.setEnvPar p).cmdVyaw = s.cmdVyaw := rfl
@[simp] theorem State.setEnvPar_wheelWL (s : State) (p : Params) : (s.setEnvPar p).wheelWL = s.wheelWL := rfl
@[simp] theorem State.setEnvPar_wheelWR (s : State) (p : Params) : (s.setEnvPar p).wheelWR = s.wheelWR := rfl
@[simp] theorem State.setEnvPar_measVx (s : State) (p : Params) : (s.setEnvPar p).measVx = s.measVx := rfl
@[simp] theorem State.setEnvPar_measVyaw (s : State) (p : Params) : (s.setEnvPar p).measVyaw = s.measVyaw := rfl
@[simp] theorem State.setEnvPar_measValid (s : State) (p : Params) : (s.setEnvPar p).measValid = s.measValid := rfl
@[simp] theorem State.setEnvPar_volt (s : State) (p : Params) : (s.setEnvPar p).volt = s.volt := rfl
@[simp] theorem State.setEnvPar_voltValid (s : State) (p : Params) : (s.setEnvPar p).voltValid = s.voltValid := rfl
@[simp] theorem State.setEnvPar_wcmd (s : State) (p : Params) : (s.setEnvPar p).wcmd = s.wcmd := rfl
@[simp] theorem State.setEnvPar_cfgSep (s : State) (p : Params) : (s.setEnvPar p).cfgSep = s.cfgSep := rfl
@[simp] theorem State.setEnvPar_cfgRadius (s : State) (p : Params) : (s.setEnvPar p).cfgRadius = s.cfgRadius := rfl
@[simp] theorem State.setEnvPar_par (s : State) (p : Params) : (s.setEnvPar p).par = s.par := rfl
@[simp] theorem State.setEnvPar_envPar (s : State) (p : Params) : (s.setEnvPar p).envPar = p := rfl
@[simp] theorem State.setEnvPar_input (s : State) (p : Params) : (s.setEnvPar p).input = s.input := rfl
@[simp] theorem State.setEnvPar_tx (s : State) (p : Params) : (s.setEnvPar p).tx = s.tx := rfl
@[simp] theorem State.setEnvPar_obs (s : State) (p : Params) : (s.setEnvPar p).obs = [] := rfl

@[simp] theorem State.deliver_mode (s : State) (w : InputWord) : (s.deliver w).mode = s.mode := rfl
@[simp] theorem State.deliver_win (s : State) (w : InputWord) : (s.deliver w).win = s.win := rfl
@[simp] theorem State.deliver_winN (s : State) (w : InputWord) : (s.deliver w).winN = s.winN := rfl
@[simp] theorem State.deliver_latestFrame (s : State) (w : InputWord) : (s.deliver w).latestFrame = s.latestFrame := rfl
@[simp] theorem State.deliver_latestValid (s : State) (w : InputWord) : (s.deliver w).latestValid = s.latestValid := rfl
@[simp] theorem State.deliver_cmdVx (s : State) (w : InputWord) : (s.deliver w).cmdVx = s.cmdVx := rfl
@[simp] theorem State.deliver_cmdVyaw (s : State) (w : InputWord) : (s.deliver w).cmdVyaw = s.cmdVyaw := rfl
@[simp] theorem State.deliver_wheelWL (s : State) (w : InputWord) : (s.deliver w).wheelWL = s.wheelWL := rfl
@[simp] theorem State.deliver_wheelWR (s : State) (w : InputWord) : (s.deliver w).wheelWR = s.wheelWR := rfl
@[simp] theorem State.deliver_measVx (s : State) (w : InputWord) : (s.deliver w).measVx = s.measVx := rfl
@[simp] theorem State.deliver_measVyaw (s : State) (w : InputWord) : (s.deliver w).measVyaw = s.measVyaw := rfl
@[simp] theorem State.deliver_measValid (s : State) (w : InputWord) : (s.deliver w).measValid = s.measValid := rfl
@[simp] theorem State.deliver_volt (s : State) (w : InputWord) : (s.deliver w).volt = s.volt := rfl
@[simp] theorem State.deliver_voltValid (s : State) (w : InputWord) : (s.deliver w).voltValid = s.voltValid := rfl
@[simp] theorem State.deliver_wcmd (s : State) (w : InputWord) : (s.deliver w).wcmd = s.wcmd := rfl
@[simp] theorem State.deliver_cfgSep (s : State) (w : InputWord) : (s.deliver w).cfgSep = s.cfgSep := rfl
@[simp] theorem State.deliver_cfgRadius (s : State) (w : InputWord) : (s.deliver w).cfgRadius = s.cfgRadius := rfl
@[simp] theorem State.deliver_par (s : State) (w : InputWord) : (s.deliver w).par = s.par := rfl
@[simp] theorem State.deliver_envPar (s : State) (w : InputWord) : (s.deliver w).envPar = s.envPar := rfl
@[simp] theorem State.deliver_input (s : State) (w : InputWord) : (s.deliver w).input = .word w :: s.input := rfl
@[simp] theorem State.deliver_tx (s : State) (w : InputWord) : (s.deliver w).tx = s.tx := rfl
@[simp] theorem State.deliver_obs (s : State) (w : InputWord) : (s.deliver w).obs = s.obs := rfl

@[simp] theorem State.resetRegisters_mode (s : State) (p : Params) (chanOk : Bool) : (s.resetRegisters p chanOk).mode = if chanOk then .run else .fatal := rfl
@[simp] theorem State.resetRegisters_win (s : State) (p : Params) (chanOk : Bool) : (s.resetRegisters p chanOk).win = Vector.replicate Config.inLen 0 := rfl
@[simp] theorem State.resetRegisters_winN (s : State) (p : Params) (chanOk : Bool) : (s.resetRegisters p chanOk).winN = 0 := rfl
@[simp] theorem State.resetRegisters_latestFrame (s : State) (p : Params) (chanOk : Bool) : (s.resetRegisters p chanOk).latestFrame = 0 := rfl
@[simp] theorem State.resetRegisters_latestValid (s : State) (p : Params) (chanOk : Bool) : (s.resetRegisters p chanOk).latestValid = false := rfl
@[simp] theorem State.resetRegisters_cmdVx (s : State) (p : Params) (chanOk : Bool) : (s.resetRegisters p chanOk).cmdVx = 0 := rfl
@[simp] theorem State.resetRegisters_cmdVyaw (s : State) (p : Params) (chanOk : Bool) : (s.resetRegisters p chanOk).cmdVyaw = 0 := rfl
@[simp] theorem State.resetRegisters_wheelWL (s : State) (p : Params) (chanOk : Bool) : (s.resetRegisters p chanOk).wheelWL = zeroNum p.numeric := rfl
@[simp] theorem State.resetRegisters_wheelWR (s : State) (p : Params) (chanOk : Bool) : (s.resetRegisters p chanOk).wheelWR = zeroNum p.numeric := rfl
@[simp] theorem State.resetRegisters_measVx (s : State) (p : Params) (chanOk : Bool) : (s.resetRegisters p chanOk).measVx = zeroNum p.numeric := rfl
@[simp] theorem State.resetRegisters_measVyaw (s : State) (p : Params) (chanOk : Bool) : (s.resetRegisters p chanOk).measVyaw = zeroNum p.numeric := rfl
@[simp] theorem State.resetRegisters_measValid (s : State) (p : Params) (chanOk : Bool) : (s.resetRegisters p chanOk).measValid = false := rfl
@[simp] theorem State.resetRegisters_volt (s : State) (p : Params) (chanOk : Bool) : (s.resetRegisters p chanOk).volt = zeroNum p.numeric := rfl
@[simp] theorem State.resetRegisters_voltValid (s : State) (p : Params) (chanOk : Bool) : (s.resetRegisters p chanOk).voltValid = false := rfl
@[simp] theorem State.resetRegisters_wcmd (s : State) (p : Params) (chanOk : Bool) : (s.resetRegisters p chanOk).wcmd = ⟨0, 1, 0, 1⟩ := rfl
@[simp] theorem State.resetRegisters_cfgSep (s : State) (p : Params) (chanOk : Bool) : (s.resetRegisters p chanOk).cfgSep = p.wheelSep := rfl
@[simp] theorem State.resetRegisters_cfgRadius (s : State) (p : Params) (chanOk : Bool) : (s.resetRegisters p chanOk).cfgRadius = p.wheelRadius := rfl
@[simp] theorem State.resetRegisters_par (s : State) (p : Params) (chanOk : Bool) : (s.resetRegisters p chanOk).par = p := rfl
@[simp] theorem State.resetRegisters_envPar (s : State) (p : Params) (chanOk : Bool) : (s.resetRegisters p chanOk).envPar = s.envPar := rfl
@[simp] theorem State.resetRegisters_input (s : State) (p : Params) (chanOk : Bool) : (s.resetRegisters p chanOk).input = s.input := rfl
@[simp] theorem State.resetRegisters_tx (s : State) (p : Params) (chanOk : Bool) : (s.resetRegisters p chanOk).tx = s.tx := rfl
@[simp] theorem State.resetRegisters_obs (s : State) (p : Params) (chanOk : Bool) : (s.resetRegisters p chanOk).obs = s.obs := rfl

@[simp] theorem State.perform_of_run (s : State) (rule : State → State) (h : s.mode = .run) : s.perform rule = rule s := by
  simp [State.perform, h]

@[simp] theorem State.perform_of_fatal (s : State) (rule : State → State) (h : s.mode = .fatal) : s.perform rule = s.dead := by
  simp [State.perform, h]

end Sys2Proof.Machine
end

