-- ==== Sys2Proof/Laws/Rules.lean ====
section
/-! SUPPORT. For each shared operation and each event's rule, one lemma that says once everything it can do: later proofs
take its cases instead of unfolding it. -/

namespace Sys2Proof.Machine

/-- The dispatch on MODE: DEAD, or the rule. -/
theorem State.perform_cases (s : State) (rule : State → State) :
    (s.mode = .fatal ∧ s.perform rule = s.dead) ∨ (s.mode = .run ∧ s.perform rule = rule s) := by
  cases h : s.mode with
  | fatal => exact .inl ⟨rfl, s.perform_of_fatal rule h⟩
  | run => exact .inr ⟨rfl, s.perform_of_run rule h⟩

/-- A fill count is below 7 or it is 7. -/
theorem winN_cases (n : Fin 8) : n.val + 1 < 8 ∨ n = 7 := by
  rcases Nat.lt_or_ge (n.val + 1) 8 with h | h
  · exact .inl h
  · exact .inr (Fin.ext (by have := n.isLt; show n.val = 7; omega))

/-- The header test of a window, as the two bytes. -/
theorem headerOk_iff (w : Vector Byte 8) : headerOk w = true ↔ w[0] = 0xFF ∧ w[1] = 0xFE := by
  simp [headerOk, Config.hdr0, Config.hdr1]

/-- SYNC_FILL of a window that does not fill (R101). -/
theorem syncFill_of_lt (b : Byte) (s : State) (h : s.winN.val + 1 < 8) :
    syncFill b s = { s with win := s.win.set s.winN b, winN := ⟨s.winN.val + 1, h⟩,
                            obs := [⟨.ok (some .fill), false⟩] } := by
  simp [syncFill, h, State.observe]

/-- SYNC_FILL that completes a window with the header pair (R102). -/
theorem syncFill_accept (b : Byte) (s : State) (h : s.winN = 7) (hh : headerOk s.win = true) :
    syncFill b s = { s with win := s.win.set 7 b, winN := 0, latestFrame := packWindow (s.win.set 7 b),
                            latestValid := true, obs := [⟨.ok (some .accept), true⟩] } := by
  have hk : headerOk (s.win.set 7 b) = true := by
    rw [headerOk_iff] at hh ⊢
    simpa using hh
  simp [syncFill, h, syncCheck, hk, syncAccept, State.publishFrame, State.setLatestValid, State.observeAccept]

/-- SYNC_FILL that completes a window without the header pair (R103). -/
theorem syncFill_slip (b : Byte) (s : State) (h : s.winN = 7) (hh : headerOk s.win = false) :
    syncFill b s = { s with win := slideWindow (s.win.set 7 b), winN := 7, obs := [⟨.ok (some .slip), false⟩] } := by
  have hk : headerOk (s.win.set 7 b) = false := by
    rw [← Bool.not_eq_true, headerOk_iff] at hh ⊢
    simpa using hh
  simp [syncFill, h, syncCheck, hk, syncSlip, State.observe]
  rfl

/-- Everything one RX_BYTE event can do (R101 to R103, R206). -/
theorem State.receive_cases (s : State) (b : Byte) :
    (s.mode = .fatal ∧ s.receive b = { s with obs := [⟨.dead, false⟩] }) ∨
    (s.mode = .run ∧ ∃ h : s.winN.val + 1 < 8,
      s.receive b = { s with win := s.win.set s.winN b, winN := ⟨s.winN.val + 1, h⟩,
                             obs := [⟨.ok (some .fill), false⟩] }) ∨
    (s.mode = .run ∧ s.winN = 7 ∧ headerOk s.win = true ∧
      s.receive b = { s with win := s.win.set 7 b, winN := 0, latestFrame := packWindow (s.win.set 7 b),
                             latestValid := true, obs := [⟨.ok (some .accept), true⟩] }) ∨
    (s.mode = .run ∧ s.winN = 7 ∧ headerOk s.win = false ∧
      s.receive b = { s with win := slideWindow (s.win.set 7 b), winN := 7,
                             obs := [⟨.ok (some .slip), false⟩] }) := by
  rcases s.perform_cases (syncFill b) with ⟨hm, e⟩ | ⟨hm, e⟩
  · exact .inl ⟨hm, e⟩
  · rcases winN_cases s.winN with h | h
    · exact .inr (.inl ⟨hm, h, e.trans (syncFill_of_lt b s h)⟩)
    · cases hh : headerOk s.win with
      | true => exact .inr (.inr (.inl ⟨hm, h, rfl, e.trans (syncFill_accept b s h hh)⟩))
      | false => exact .inr (.inr (.inr ⟨hm, h, rfl, e.trans (syncFill_slip b s h hh)⟩))

/-- Everything an RX_IDLE's rule can do (R104). -/
theorem syncIdle_eq (s : State) :
    syncIdle s = { s with winN := if s.par.rxIdleFlush then 0 else s.winN, obs := [⟨.ok none, false⟩] } := by
  unfold syncIdle
  split <;> rfl

/-- Everything an ODOM_TICK's rule can do (R184, R201). -/
theorem odomTickRule_cases (s : State) :
    (s.latestValid = false ∧ odomTickRule s = { s with obs := [⟨.skipNoFrame, false⟩] }) ∨
    (s.latestValid = true ∧ ∃ cause, odomMeasurement s = .error cause ∧
      odomTickRule s = { s with obs := [⟨.skipArith cause, false⟩] }) ∨
    (s.latestValid = true ∧ ∃ m, odomMeasurement s = .ok m ∧
      odomTickRule s = { s with wheelWL := m.wl, wheelWR := m.wr, measVx := m.vx, measVyaw := m.vyaw,
                                measValid := true, obs := [⟨.ok none, false⟩] }) := by
  cases hv : s.latestValid with
  | false => exact .inl ⟨rfl, by simp [odomTickRule, hv, State.skip, State.observe]⟩
  | true =>
    cases hm : odomMeasurement s with
    | error c => exact .inr (.inl ⟨rfl, c, rfl, by simp [odomTickRule, hv, hm, State.skip, State.observe]⟩)
    | ok m =>
      exact .inr (.inr ⟨rfl, m, rfl,
        by simp [odomTickRule, hv, hm, State.publishMeasurement, State.setMeasValid, State.observe]⟩)

/-- Everything a BATT_TICK's rule can do (R185, R201). -/
theorem battTickRule_cases (s : State) :
    (s.latestValid = false ∧ battTickRule s = { s with obs := [⟨.skipNoFrame, false⟩] }) ∨
    (s.latestValid = true ∧
      battTickRule s = { s with volt := voltage s, voltValid := true, obs := [⟨.ok none, false⟩] }) := by
  cases hv : s.latestValid with
  | false => exact .inl ⟨rfl, by simp [battTickRule, hv, State.skip, State.observe]⟩
  | true =>
    exact .inr ⟨rfl, by simp [battTickRule, hv, State.publishVoltage, State.setVoltValid, State.observe]⟩

/-- Everything a CMD_TICK's rule can do (R186, R201). -/
theorem cmdTickRule_cases (s : State) :
    (∃ c, encodeRegisters s = .ok c ∧
      cmdTickRule s = { s with wcmd := c, tx := s.tx ++ (encFrame c).toList, obs := [⟨.ok none, false⟩] }) ∨
    (∃ cause, encodeRegisters s = .error cause ∧
      cmdTickRule s = { s with tx := if s.par.cmdFaultPolicy = .resend then s.tx ++ (encFrame s.wcmd).toList else s.tx,
                               obs := [⟨.skipArith cause, false⟩] }) := by
  cases he : encodeRegisters s with
  | ok c =>
    exact .inl ⟨c, rfl, by simp [cmdTickRule, he, State.publishWheelCommand, State.transmit, State.observe]⟩
  | error c =>
    refine .inr ⟨c, rfl, ?_⟩
    cases hp : s.par.cmdFaultPolicy <;>
      simp [cmdTickRule, he, resendFrame, hp, State.transmit, State.skip, State.observe]

/-- The reception of no byte. -/
@[simp] theorem receiveAll_nil (s : State) : receiveAll [] s = { s with obs := [] } := rfl

/-- The reception of one more byte. -/
theorem receiveAll_cons (b : Byte) (bs : List Byte) (s : State) :
    receiveAll (b :: bs) s =
      { receiveAll bs (s.receive b) with obs := (s.receive b).obs ++ (receiveAll bs (s.receive b)).obs } := rfl

/-- What every RX_BYTE event keeps, the reception of any bytes keeps. -/
theorem receiveAll_induction (P : State → Prop) (hobs : ∀ s o, P s → P { s with obs := o })
    (hstep : ∀ s b, P s → P (s.receive b)) (bs : List Byte) (s : State) (h : P s) : P (receiveAll bs s) := by
  induction bs generalizing s with
  | nil => exact hobs s [] h
  | cons b bs ih => exact hobs _ _ (ih _ (hstep s b h))

/-- Everything a word that is no row of the opcode table can do: its eight bytes are received, or nothing (R78, R52). -/
theorem State.takeNonRow_cases (s : State) (e : DecodeError) :
    (∃ w, e = .notAnInputFrame w ∧ s.takeNonRow e = receiveAll (frameBytes w).toList s) ∨
    (∃ w, e = .notAnOutputFrame w ∧ s.takeNonRow e = { s with obs := [] }) := by
  cases e with
  | notAnInputFrame w => exact .inl ⟨w, rfl, rfl⟩
  | notAnOutputFrame w => exact .inr ⟨w, rfl, rfl⟩

end Sys2Proof.Machine
end

