-- ==== Sys2Proof/Laws/Solver.lean ====
section
/-! SUPPORT. The computations of 41_telemetry_decode.md to 43_command_encoder.md, over any arithmetic domain: for each, one
lemma that says when it answers and what, or what its failure means. -/

namespace Sys2Proof.Machine

variable {α : Type} (A : Arith α)

/-- What KIN_FWD answers, and when (42_kinematics.md R141; 60_exceptions.md R203). -/
theorem kinFwd_ok_iff (wl wr r l vx vyaw : α) :
    kinFwd A wl wr r l = .ok (vx, vyaw) ↔
      (A.isFinite wl = true ∧ A.isFinite wr = true ∧ A.isFinite r = true ∧ A.isFinite l = true) ∧
      A.isZero l = false ∧
      (A.isFinite (A.mul wl r) = true ∧ A.isFinite (A.mul wr r) = true ∧ A.isFinite vx = true ∧
        A.isFinite vyaw = true) ∧
      vx = A.div (A.add (A.mul wr r) (A.mul wl r)) (A.ofInt 2) ∧
      vyaw = A.div (A.sub (A.mul wr r) (A.mul wl r)) l := by
  unfold kinFwd
  dsimp only
  split
  · rename_i h
    constructor
    · intro e; cases e
    · rintro ⟨⟨h1, h2, h3, h4⟩, -⟩
      simp [h1, h2, h3, h4] at h
  · rename_i h
    simp only [Bool.not_eq_true, Bool.not_eq_false', Bool.and_eq_true] at h
    split
    · rename_i hz
      constructor
      · intro e; cases e
      · rintro ⟨-, hl, -⟩
        simp [hz] at hl
    · rename_i hz
      split
      · rename_i hf
        simp only [Bool.and_eq_true] at hf
        constructor
        · intro e
          injection e with e
          injection e with e1 e2
          subst e1 e2
          exact ⟨⟨h.1.1.1, h.1.1.2, h.1.2, h.2⟩, by simpa using hz,
            ⟨hf.1.1.1, hf.1.1.2, hf.1.2, hf.2⟩, rfl, rfl⟩
        · rintro ⟨-, -, -, rfl, rfl⟩
          rfl
      · rename_i hf
        constructor
        · intro e; cases e
        · rintro ⟨-, -, ⟨h1, h2, h3, h4⟩, rfl, rfl⟩
          simp [h1, h2, h3, h4] at hf

/-- What KIN_INV answers, and when (42_kinematics.md R142; 60_exceptions.md R203). -/
theorem kinInv_ok_iff (vx vyaw r l wl wr : α) :
    kinInv A vx vyaw r l = .ok (wl, wr) ↔
      (A.isFinite vx = true ∧ A.isFinite vyaw = true ∧ A.isFinite r = true ∧ A.isFinite l = true) ∧
      A.isZero r = false ∧
      (A.isFinite (A.div l (A.ofInt 2)) = true ∧ A.isFinite (A.mul (A.div l (A.ofInt 2)) vyaw) = true ∧
        A.isFinite wr = true ∧ A.isFinite wl = true) ∧
      wl = A.div (A.sub vx (A.mul (A.div l (A.ofInt 2)) vyaw)) r ∧
      wr = A.div (A.add vx (A.mul (A.div l (A.ofInt 2)) vyaw)) r := by
  unfold kinInv
  dsimp only
  split
  · rename_i h
    constructor
    · intro e; cases e
    · rintro ⟨⟨h1, h2, h3, h4⟩, -⟩
      simp [h1, h2, h3, h4] at h
  · rename_i h
    simp only [Bool.not_eq_true, Bool.not_eq_false', Bool.and_eq_true] at h
    split
    · rename_i hz
      constructor
      · intro e; cases e
      · rintro ⟨-, hl, -⟩
        simp [hz] at hl
    · rename_i hz
      split
      · rename_i hf
        simp only [Bool.and_eq_true] at hf
        constructor
        · intro e
          injection e with e
          injection e with e1 e2
          subst e1 e2
          exact ⟨⟨h.1.1.1, h.1.1.2, h.1.2, h.2⟩, by simpa using hz,
            ⟨hf.1.1.1, hf.1.1.2, hf.1.2, hf.2⟩, rfl, rfl⟩
        · rintro ⟨-, -, -, rfl, rfl⟩
          rfl
      · rename_i hf
        constructor
        · intro e; cases e
        · rintro ⟨-, -, ⟨h1, h2, h3, h4⟩, rfl, rfl⟩
          simp [h1, h2, h3, h4] at hf

/-- What ENC_WHEEL answers, and when (43_command_encoder.md R165). -/
theorem encWheel_ok_iff (q : MagQuant) (w : α) (mag : Byte) (dir : BitVec 1) :
    encWheel A q w = .ok (mag, dir) ↔
      ∃ t, encTicks A w = .ok t ∧ mag = encQuant A q (encClamp A t) ∧ dir = encDir A t := by
  unfold encWheel
  split
  · rename_i h
    simp [h]
  · rename_i t h
    constructor
    · intro e
      injection e with e
      injection e with e1 e2
      exact ⟨t, h, e1.symm, e2.symm⟩
    · rintro ⟨t', ht, rfl, rfl⟩
      rw [h] at ht
      injection ht with ht
      rw [ht]

/-- What ENCODE answers, and when (43_command_encoder.md R167). -/
theorem encodeCommand_ok_iff (q : MagQuant) (vx vyaw r l : α) (c : WheelCommand) :
    encodeCommand A q vx vyaw r l = .ok c ↔
      ∃ wl wr, kinInv A vx vyaw r l = .ok (wl, wr) ∧ encWheel A q wl = .ok (c.lmag, c.ldir) ∧
        encWheel A q wr = .ok (c.rmag, c.rdir) := by
  unfold encodeCommand
  cases hk : kinInv A vx vyaw r l with
  | error e => simp
  | ok p =>
    obtain ⟨wl, wr⟩ := p
    dsimp only
    cases hl : encWheel A q wl with
    | error e => simp [hl]
    | ok pl =>
      obtain ⟨lmag, ldir⟩ := pl
      dsimp only
      cases hr : encWheel A q wr with
      | error e => simp [hr]
      | ok pr =>
        obtain ⟨rmag, rdir⟩ := pr
        cases c
        simp [hl, hr, and_assoc]

/-- What the measurement of an ODOM_TICK answers, and when (41_telemetry_decode.md R125, 42_kinematics.md R141). -/
theorem measureWith_ok_iff (s : State) (m : Measurement) :
    measureWith A s = .ok m ↔
      ∃ vx vyaw, kinFwd A (decWheel A (frameLeft s.latestFrame)) (decWheel A (frameRight s.latestFrame))
          (A.ofBits s.cfgRadius) (A.ofBits s.cfgSep) = .ok (vx, vyaw) ∧
        m = ⟨A.toNum (decWheel A (frameLeft s.latestFrame)), A.toNum (decWheel A (frameRight s.latestFrame)),
          A.toNum vx, A.toNum vyaw⟩ := by
  unfold measureWith decMotion
  dsimp only
  split
  · rename_i h
    simp [h]
  · rename_i vx vyaw h
    constructor
    · intro e
      injection e with e
      exact ⟨vx, vyaw, h, e.symm⟩
    · rintro ⟨vx', vyaw', h', rfl⟩
      rw [h] at h'
      injection h' with h'
      injection h' with h1 h2
      rw [h1, h2]

end Sys2Proof.Machine
end

