-- ==== Sys2Proof/Laws/Step.lean ====
section
/-! SUPPORT. Everything a step can do: the cases that later proofs take instead of unfolding the step function. -/

namespace Sys2Proof.Machine

/-- What the environment does next, or nothing. -/
theorem State.fetch_cases (s : State) :
    (s.input = [] ∧ s.fetch = none) ∨
    (∃ x rest, s.input = x :: rest ∧ s.fetch = some (x, { s with input := rest })) := by
  cases h : s.input with
  | nil => exact .inl ⟨rfl, by simp [State.fetch, h]⟩
  | cons x rest => exact .inr ⟨x, rest, rfl, by simp [State.fetch, h]⟩

/-- A step waits, notes the parameters the environment fixes, performs an instruction, or takes a word that is no row. -/
theorem step_cases (s : State) :
    (s.input = [] ∧ step s = .next s.noEvent) ∨
    (∃ p rest, s.input = .fixParameters p :: rest ∧ step s = .next (State.setEnvPar { s with input := rest } p)) ∨
    (∃ w rest i, s.input = .word w :: rest ∧ decode w = .ok i ∧ step s = exec i { s with input := rest }) ∨
    (∃ w rest e, s.input = .word w :: rest ∧ decode w = .error e ∧
      step s = .next (State.takeNonRow { s with input := rest } e)) := by
  rcases s.fetch_cases with ⟨hi, hf⟩ | ⟨x, rest, hi, hf⟩
  · exact .inl ⟨hi, by simp [step, hf]⟩
  · cases x with
    | fixParameters p => exact .inr (.inl ⟨p, rest, hi, by simp [step, hf]⟩)
    | word w =>
      cases hd : decode w with
      | ok i => exact .inr (.inr (.inl ⟨w, rest, i, hi, hd, by simp [step, hf, hd]⟩))
      | error e => exact .inr (.inr (.inr ⟨w, rest, e, hi, hd, by simp [step, hf, hd]⟩))

end Sys2Proof.Machine
end

