-- ==== Sys2Proof/Tests/Slice0.lean ====
section
/-! SUPPORT. The model's own tests: expected results are those of 95_test_vectors.md (named beside each test) or are worked
out by hand from the rule named. Then, for each statement with hypotheses, a concrete state and operands that meet them. -/

-- One theorem at a time: many kernel evaluations at once need a thread, and its stack, each.
set_option Elab.async false

namespace Sys2Proof.Tests

open Sys2Proof Sys2Proof.Machine

/-! ### A small state -/

/-- Parameters with the example geometry L, r of 95_test_vectors.md and the spec's defaults. -/
def params (l r : B64) : Params := ⟨l, r, false, .trunc, .skip, .binary64, 1, 50⟩

/-- The state after `reset ok` with the geometry L, r. -/
def start (l r : B64) : State := { State.reset with par := params l r, envPar := params l r, cfgSep := l, cfgRadius := r }

/-- L = 0.25, r = 0.0625. -/
def s0 : State := start 0x3FD0000000000000 0x3FB0000000000000

/-- `s0` with a published frame (vL = 520, vR = 480, b = 1260). -/
def s1 : State := { s0 with latestFrame := 0xFFFE020801E004EC, latestValid := true }

/-- `s0` in FATAL mode. -/
def sDead : State := { s0 with mode := .fatal }

/-- `s0` with a window of seven bytes. -/
def sFull (a b : Byte) : State := { s0 with win := #v[a, b, 0x01, 0xF4, 0x01, 0xF4, 0x01, 0], winN := 7 }

/-- The next state of an instruction. -/
def after (i : Instr) (s : State) : State :=
  match exec i s with
  | .next t => t
  | .fault _ => s
  | .refused _ => s

/-- The next state of a step. -/
def afterStep (s : State) : State :=
  match step s with
  | .next t => t
  | .fault _ => s
  | .refused _ => s

/-! ### WellFormed -/

theorem test_wellFormed_refuses_left_direction_byte : (Instr.txFrame 19 2 19 1).wellFormed = false := by decide
theorem test_wellFormed_refuses_right_direction_byte : (Instr.txFrame 19 1 19 255).wellFormed = false := by decide
theorem test_wellFormed_admits_both_directions : (Instr.txFrame 255 0 4 1).wellFormed = true := by decide

/-! ### Decode: words of 95_test_vectors.md 2.5 and 2.7, or written out from R72, R75 and R79 -/

theorem test_decode_rxByte : decode (.ev 0b11111110_000) = .ok (.rxByte 0xFE) := by decide
theorem test_decode_rxIdle : decode (.ev 0b001) = .ok .rxIdle := by decide
theorem test_decode_setCmd_vx : decode (.ev 0x40000000000000002) = .ok (.setCmd 0x8000000000000000 0) := by decide
theorem test_decode_setCmd_vyaw :
    decode (.ev 0x1FF800000000000000000000000000002) = .ok (.setCmd 0 0x3FF0000000000000) := by decide
theorem test_decode_odomTick : decode (.ev 0b011) = .ok .odomTick := by decide
theorem test_decode_battTick : decode (.ev 0b100) = .ok .battTick := by decide
theorem test_decode_cmdTick : decode (.ev 0b101) = .ok .cmdTick := by decide
theorem test_decode_reset_ok : decode (.ev 0b1_110) = .ok (.reset true) := by decide
theorem test_decode_reset_fail : decode (.ev 0b0_110) = .ok (.reset false) := by decide
theorem test_decode_reserved_ignores_payload : decode (.ev 0xFFF7) = .ok .reserved := by decide
theorem test_decode_ignored_bits_of_rxByte : decode (.ev 0x807F8) = .ok (.rxByte 0xFF) := by decide
theorem test_decode_rxFrame : decode (.rxf 0xFFFE_0208_01E0_04EC) = .ok (.rxFrame 520 480 1260) := by decide
theorem test_decode_rxFrame_refuses_header : 
    decode (.rxf 0xFEFF01F401F40190) = .error (.notAnInputFrame 0xFEFF01F401F40190) := by decide
theorem test_decode_txFrame : decode (.txf 0xFFFE_FF_00_04_01) = .ok (.txFrame 255 0 4 1) := by decide
theorem test_decode_txFrame_refuses_direction : 
    decode (.txf 0xFFFE_FF_02_04_01) = .error (.notAnOutputFrame 0xFFFE_FF_02_04_01) := by decide
theorem test_encode_setCmd : encode (.setCmd 0x3FE0000000000000 0) = .ev 0x1FF00000000000002 := by decide
theorem test_encode_txFrame : encode (.txFrame 19 1 19 1) = .txf 0xFFFE13011301 := by decide

/-- Each row of the opcode table, at its own number of bits. -/
theorem test_decodeTableWord_rows :
    [decodeTableWord 8 0, decodeTableWord 8 1, decodeTableWord 8 2, decodeTableWord 8 3, decodeTableWord 8 4,
      decodeTableWord 8 5, decodeTableWord 8 6, decodeTableWord 8 7, decodeTableWord 64 0xFFFE000000000000,
      decodeTableWord 48 0xFFFE00000000] =
    [some (.rxByte 0), some .rxIdle, some (.setCmd 0 0), some .odomTick, some .battTick, some .cmdTick,
      some (.reset false), some .reserved, some (.rxFrame 0 0 0), some (.txFrame 0 0 0 0)] := by decide

/-! ### The step -/

theorem test_step_runs_input : step (State.reset.withFetchWord 8 7) = exec .reserved State.reset := by rfl
/-- Eight zero bytes are seven fills and a slip (R101, R103). -/
theorem test_step_receives_a_word_without_header :
    (afterStep (State.reset.withFetchWord 64 0)).winN = 7 ∧
    (afterStep (State.reset.withFetchWord 64 0)).obs = List.replicate 7 ⟨.ok (some .fill), false⟩ ++ [⟨.ok (some .slip), false⟩] :=
  ⟨by rfl, by rfl⟩
/-- A frame on the transmit side has no effect, with legal direction bytes and without (R52). -/
theorem test_step_ignores_the_transmit_side :
    step (s0.withFetchWord 48 0xFFFE02020202) = .next { s0 with obs := [] } ∧
    step (s0.withFetchWord 48 0xFFFE13011301) = .next { s0 with obs := [] } := ⟨by rfl, by rfl⟩
/-- The parameters fixed before a RESET are those it takes (R234, R230). -/
theorem test_reset_takes_the_fixed_parameters :
    (after (.reset true) (afterStep { s0 with input := [.fixParameters (params 3 5)] })).cfgRadius = 5 ∧
    (afterStep { s0 with input := [.fixParameters (params 3 5)] }).par = s0.par := by decide

/-! ### Receive (SY-1, SY-7, SY-9) -/

theorem test_rxByte_accept : (after (.rxByte 0x90) (sFull 0xFF 0xFE)).latestFrame = 0xFFFE01F401F40190 ∧
    (after (.rxByte 0x90) (sFull 0xFF 0xFE)).winN = 0 ∧ (after (.rxByte 0x90) (sFull 0xFF 0xFE)).framePub = true := by decide
theorem test_rxByte_slip : (after (.rxByte 0x90) (sFull 0xFE 0xFF)).win.toList.take 7 =
      [0xFF, 0x01, 0xF4, 0x01, 0xF4, 0x01, 0x90] ∧
    (after (.rxByte 0x90) (sFull 0xFE 0xFF)).obs = [⟨.ok (some .slip), false⟩] := by decide
theorem test_rxIdle_flush : (after .rxIdle { sFull 0xFF 0xFE with par := { params 0 0 with rxIdleFlush := true } }).winN = 0 := by
  decide
theorem test_rxIdle_keeps : (after .rxIdle (sFull 0xFF 0xFE)).winN = 7 := by decide
theorem test_rxFrame_aligned : (after (.rxFrame 500 500 400) s0).latestFrame = 0xFFFE01F401F40190 := by decide
theorem test_rxFrame_after_a_false_header :
    (after (.rxFrame 520 480 1260) { s0 with win := #v[0xFF, 0xFE, 0, 0, 0, 0, 0, 0], winN := 2 }).latestFrame =
      0xFFFEFFFE020801E0 ∧
    (after (.rxFrame 520 480 1260) { s0 with win := #v[0xFF, 0xFE, 0, 0, 0, 0, 0, 0], winN := 2 }).winN = 2 := by decide

/-! ### Ticks (EV-5, EV-6, DC-W, DC-V, KN-E) -/

theorem test_odomTick_values :
    (after .odomTick s1).wheelWL = .b64 0x40201C58E73F651D ∧ (after .odomTick s1).wheelWR = .b64 0xC0201C58E73F651D ∧
    (after .odomTick s1).measVx = .b64 0 ∧ (after .odomTick s1).measVyaw = .b64 0xC0101C58E73F651D := by decide +kernel
theorem test_odomTick_zero_separation :
    (after .odomTick { s1 with cfgSep := 0x8000000000000000 }).obs = [⟨.skipArith .divZero, false⟩] := by decide +kernel
theorem test_battTick_volts : (after .battTick s1).volt = .b64 0x4029333333333333 := by decide +kernel
theorem test_battTick_without_frame : (after .battTick s0).obs = [⟨.skipNoFrame, false⟩] := by decide

/-! ### Commands (EN-E3, EV-10) -/

theorem test_setCmd_keeps_bits : (after (.setCmd 0x7FF8000000000001 0xFFF0000000000000) s0).cmdVx = 0x7FF8000000000001 := by decide
theorem test_cmdTick_turn : (after .cmdTick { s0 with cmdVyaw := 0x3FF0000000000000 }).tx =
    [0xFF, 0xFE, 0x04, 0x00, 0x04, 0x01] := by decide +kernel
theorem test_cmdTick_resend :
    (after .cmdTick { s0 with cmdVx := 0x7FF8000000000000, wcmd := ⟨19, 1, 19, 1⟩,
                              par := { s0.par with cmdFaultPolicy := .resend } }).tx =
      [0xFF, 0xFE, 0x13, 0x01, 0x13, 0x01] := by decide +kernel
theorem test_txFrame_no_effect : exec (.txFrame 255 0 4 1) s1 = .next { s1 with obs := [] } := by rfl

/-! ### Control (EV-16, EV-17, EV-19) -/

theorem test_reset_fail : (after (.reset false) s1).mode = .fatal ∧ (after (.reset false) s1).latestValid = false ∧
    (after (.reset false) s1).obs = [⟨.dead, false⟩] := by decide
theorem test_reset_leaves_fatal : (after (.reset true) sDead).mode = .run := by decide
theorem test_reserved : (after .reserved s0).obs = [⟨.refused, false⟩] := by decide
theorem test_reserved_dead : (after .reserved sDead).obs = [⟨.dead, false⟩] := by decide

/-! ### Arithmetic (DC-W15, DC-V2, EN-T9, KN-E7, EN-E13) -/

theorem test_decWheel_max : decWheel arithB64 65535 = 0x40D99482486AF013 := by decide +kernel
theorem test_decVolt_rounds : decVolt arithB64 1 = 0x3F847AE147AE147B := by decide +kernel
theorem test_subnormal_separation_overflows :
    (after .odomTick { s1 with cfgSep := 2024 }).obs = [⟨.skipArith .nonFinite, false⟩] := by decide +kernel
theorem test_rne_rounds_up : (after .cmdTick { s0 with cmdVx := 0x3FE0000000000000,
                                                       par := { s0.par with magQuant := .rne } }).wcmd =
    ⟨20, 1, 20, 1⟩ := by decide +kernel
/-- Over the reals EN-E2's command gives the same frame: 8 / 2π × 15.6 = 19.86… -/
theorem test_real_cmdTick : (after .cmdTick { s0 with cmdVx := 0x3FE0000000000000,
                                                      par := { s0.par with numeric := .real } }).wcmd =
    ⟨19, 1, 19, 1⟩ := by decide +kernel
/-- R123 over the reals: v = 501 is 2π × 100 / 1560. -/
theorem test_real_odomTick :
    (after .odomTick { s1 with latestFrame := 0xFFFE01F501F40000, par := { s0.par with numeric := .real } }).wheelWL =
      .real ⟨5 / 39, 1⟩ := by decide +kernel

/-! ### Witnesses: states and operands that meet the hypotheses of the statements -/

theorem witness_DecodeEncodeRoundTrip : (Instr.txFrame 1 0 2 1).wellFormed = true := by decide

theorem witness_EventWordFields :
    (0x7F8#131).extractLsb' 0 3 = 0b000 ∧ (0x1#131).extractLsb' 0 3 = 0b001 ∧ (0xA#131).extractLsb' 0 3 = 0b010 ∧
    (0x3#131).extractLsb' 0 3 = 0b011 ∧ (0x4#131).extractLsb' 0 3 = 0b100 ∧ (0x5#131).extractLsb' 0 3 = 0b101 ∧
    (0xE#131).extractLsb' 0 3 = 0b110 ∧ (0xF#131).extractLsb' 0 3 = 0b111 := by decide

theorem witness_InputFrameIffHeaderPair :
    (#v[0xFF#8, 0xFE, 1, 2, 3, 4, 5, 6])[0] = 0xFF ∧ (#v[0xFF#8, 0xFE, 1, 2, 3, 4, 5, 6])[1] = 0xFE ∧
    packWindow #v[0xFF#8, 0xFE, 1, 2, 3, 4, 5, 6] &&& 0xFFFF000000000000 = 0xFFFE000000000000 := by decide

theorem witness_OutputFrameIffMask : (0xFFFEFF000401#48) &&& 0xFFFF00FE00FE = 0xFFFE00000000 := by decide

theorem witness_StepRunsDecodedInstruction :
    ({ s0 with input := [.word (.ev 5)] } : State).input = .word (.ev 5) :: [] ∧ decode (.ev 5) = .ok .cmdTick := by decide

theorem witness_StepWithoutInstruction :
    s0.input = [] ∧ ({ s0 with input := [.fixParameters s0.par] } : State).input = .fixParameters s0.par :: [] ∧
    ({ s0 with input := [.word (.rxf 0)] } : State).input = .word (.rxf 0) :: [] ∧ (0#64).extractLsb' 48 16 ≠ 0xFFFE ∧
    ({ s0 with input := [.word (.txf 0)] } : State).input = .word (.txf 0) :: [] ∧
    (0#48) &&& 0xFFFF00FE00FE ≠ 0xFFFE00000000 := by decide

theorem witness_DeliveredWordRunsNext : decodeTableWord 48 0xFFFE13011301 = some (.txFrame 19 1 19 1) := by decide

theorem witness_EveryInstructionCompletes : Instr.odomTick.isEvent = true := by decide

theorem witness_RxByteFillsWindow :
    s0.mode = .run ∧ s0.winN.val + 1 < 8 ∧ ({ s0 with winN := 6 } : State).winN.val + 1 < 8 ∧
    (sFull 0xFF 0xFE).mode = .run ∧ (sFull 0xFF 0xFE).winN = 7 := by decide

theorem witness_RxByteAcceptsFrame :
    (sFull 0xFF 0xFE).mode = .run ∧ (sFull 0xFF 0xFE).winN = 7 ∧ (sFull 0xFF 0xFE).win[0] = 0xFF ∧
    (sFull 0xFF 0xFE).win[1] = 0xFE := by decide

theorem witness_RxByteSlipsOneByte :
    (sFull 0xFF 0xFF).mode = .run ∧ (sFull 0xFF 0xFF).winN = 7 ∧
    ¬((sFull 0xFF 0xFF).win[0] = 0xFF ∧ (sFull 0xFF 0xFF).win[1] = 0xFE) ∧
    ¬((sFull 0xFE 0xFE).win[0] = 0xFF ∧ (sFull 0xFE 0xFE).win[1] = 0xFE) := by decide

theorem witness_RxIdleKeepsOrFlushes : s0.mode = .run := by decide

theorem witness_SetCmdStoresPair : (0x1FF00000000000002#131).extractLsb' 0 3 = 0b010 ∧ s0.mode = .run := by decide

theorem witness_ReservedCodeRefused : (0xFFF7#131).extractLsb' 0 3 = 0b111 ∧ s0.mode = .run := by decide


theorem witness_RxFramePublishedWhenAligned : s0.mode = .run ∧ s0.winN = 0 := by decide

theorem witness_StrobeExactlyOnAccept :
    (Instr.rxByte 0x90).isEvent = true ∧
    exec (.rxByte 0x90) (sFull 0xFF 0xFE) = .next (after (.rxByte 0x90) (sFull 0xFF 0xFE)) ∧
    (after (.rxByte 0x90) (sFull 0xFF 0xFE)).framePub = true :=
  ⟨by decide, rfl, by decide⟩

theorem witness_LatestFrameStaysUntilSuperseded :
    (Instr.rxByte 0x90).isEvent = true ∧ (∀ c, Instr.rxByte 0x90 ≠ .reset c) ∧
    exec (.rxByte 0x90) (sFull 0xFE 0xFF) = .next (after (.rxByte 0x90) (sFull 0xFE 0xFF)) ∧
    (after (.rxByte 0x90) (sFull 0xFE 0xFF)).framePub = false :=
  ⟨by decide, by decide, rfl, by decide⟩

theorem witness_WindowHoldsStreamSuffix : s0.mode = .run ∧ s0.winN = 0 := by decide

theorem witness_SyncRecoversAfterNoise :
    s0.mode = .run ∧ s0.winN = 0 ∧ ([0x02, 0x08, 0x01, 0xE0, 0x04, 0xEC] : List Byte).length = 6 ∧
    hasHeaderPair [0xFE, 0xFF, 0xFF] = false := by decide

theorem witness_EarlyRejectionPublishesTheSame : s0.mode = .run ∧ s0.winN = 0 := by decide

theorem witness_LockedTrackingPublishesEveryFrame : s0.mode = .run ∧ s0.winN = 0 := by decide

theorem witness_RoundingIsNearest :
    B64.isFinite (B64.fl false (1 / 3)) = true ∧ B64.isFinite (B64.ofInt 1) = true := by decide +kernel

/-- The middle between 2^53 and 2^53 + 2: rounded to the even one, the other equally near. -/
theorem witness_RoundingTiesToEven :
    B64.isFinite (B64.fl false 9007199254740993) = true ∧ B64.isFinite (B64.ofInt 9007199254740994) = true ∧
    |B64.toRat (B64.fl false 9007199254740993) - 9007199254740993| =
      |B64.toRat (B64.ofInt 9007199254740994) - 9007199254740993| ∧
    B64.toRat (B64.ofInt 9007199254740994) ≠ B64.toRat (B64.fl false 9007199254740993) := by decide +kernel

theorem witness_RoundingKeepsRepresentable : B64.isFinite 1 = true ∧ B64.isZero 1 = false := by decide

/-- The threshold itself overflows and the largest finite number does not. -/
theorem witness_RoundingOverflowThreshold :
    B64.isFinite (B64.fl false (2 ^ 1024 - 2 ^ 970)) = false ∧
    B64.isFinite (B64.fl false (2 ^ 1024 - 2 ^ 971)) = true := by decide +kernel

theorem witness_OperatorsCorrectlyRounded :
    B64.isFinite 0x3FE0000000000000 = true ∧ B64.isFinite 0x3FB999999999999A = true ∧
    B64.isFinite (B64.add 0x3FE0000000000000 0x3FB999999999999A) = true ∧
    B64.isFinite (B64.sub 0x3FE0000000000000 0x3FB999999999999A) = true ∧
    B64.isFinite (B64.mul 0x3FE0000000000000 0x3FB999999999999A) = true ∧
    B64.isZero 0x3FB999999999999A = false ∧
    B64.isFinite (B64.div 0x3FE0000000000000 0x3FB999999999999A) = true := by decide +kernel

theorem witness_WheelSpeedOddSymmetric : 0 < 1 ∧ 1 ≤ 500 ∧ 0 < 500 ∧ 500 ≤ 500 := by decide

theorem witness_WheelSpeedFiniteMonotone : 0 ≤ 65535 ∧ 65535 < 65536 := by decide

/-- The ticks ask for RUN mode and NUMERIC = BINARY64; without a frame and with one. -/
theorem witness_BattTickOutcome :
    (0x4#131).extractLsb' 0 3 = 0b100 ∧ s0.mode = .run ∧ s0.par.numeric = .binary64 ∧ s0.latestValid = false ∧ s1.mode = .run ∧
    s1.par.numeric = .binary64 ∧ s1.latestValid = true := by decide

/-- One state for each branch of an ODOM_TICK: no frame, a non-finite radius, a zero separation, success, an overflow. -/
theorem witness_OdomTickOutcome :
    (0x3#131).extractLsb' 0 3 = 0b011 ∧ s0.mode = .run ∧ s0.par.numeric = .binary64 ∧ s0.latestValid = false ∧
    (after .odomTick { s1 with cfgRadius := 0x7FF0000000000000 }).obs = [⟨.skipArith .nonFinite, false⟩] ∧
    (after .odomTick { s1 with cfgSep := 0 }).obs = [⟨.skipArith .divZero, false⟩] ∧
    (after .odomTick s1).obs = [⟨.ok none, false⟩] ∧
    (after .odomTick { s1 with cfgSep := 1 }).obs = [⟨.skipArith .nonFinite, false⟩] := by decide +kernel

theorem witness_EqualWheelSpeedsGiveZeroYaw :
    kinFwd arithB64 0x4020000000000000 0x4020000000000000 0x3FB0000000000000 0xBFD0000000000000 =
      .ok (0x3FE0000000000000, 0x8000000000000000) := by decide +kernel

theorem witness_OppositeWheelSpeedsGiveZeroLinear :
    kinFwd arithB64 (B64.negate 0x4020000000000000) 0x4020000000000000 0x3FB0000000000000 0x3FD0000000000000 =
      .ok (0, 0x4010000000000000) := by decide +kernel

/-- Both zeros are finite and forward; −0.5 ticks are reverse (EN-2, EN-4). -/
theorem witness_DirectionIsSignOfTicks :
    B64.isFinite 0x8000000000000000 = true ∧ encDir arithB64 0x8000000000000000 = 1 ∧
    B64.isFinite 0xBFE0000000000000 = true ∧ encDir arithB64 0xBFE0000000000000 = 0 ∧
    encWheel arithB64 .trunc 0xC000000000000000 = .ok (4, 0) ∧
    -1 < B64.toRat 0xBFE0000000000000 ∧ B64.toRat 0xBFE0000000000000 < 0 := by decide +kernel

/-- t = 255.0 and t = −255.0, the boundary (EN-12, EN-14). -/
theorem witness_SaturationKeepsDirection :
    B64.isFinite 0x406FE00000000000 = true ∧ 255 ≤ B64.toRat 0x406FE00000000000 ∧
    B64.isFinite 0xC06FE00000000000 = true ∧ B64.toRat 0xC06FE00000000000 ≤ -255 := by decide +kernel

/-- −0.0, −397.25 and 255.0 ticks (EN-E5, EN-12). -/
theorem witness_ClampedMagnitudeIsMinimum :
    B64.isFinite 0x8000000000000000 = true ∧ B64.isZero 0x8000000000000000 = true ∧
    B64.isFinite 0xC078D40000000000 = true ∧ B64.toRat 0xC078D40000000000 = -397.25 ∧
    encClamp arithB64 0xC078D40000000000 = 0x406FE00000000000 := by decide +kernel

/-- t = 254.5, half way between two magnitudes (EN-10): the even one. -/
theorem witness_QuantisedMagnitudeOfClampedTicks :
    B64.isFinite 0x406FD00000000000 = true ∧ B64.toRat (encClamp arithB64 0x406FD00000000000) = 254.5 ∧
    encQuant arithB64 .rne (encClamp arithB64 0x406FD00000000000) = 254 := by decide +kernel

/-- One state for each branch of a CMD_TICK: a non-finite command, a zero radius, an overflow of the solver, an overflow of
the tick conversion, success. -/
theorem witness_CmdTickOutcome :
    (0x5#131).extractLsb' 0 3 = 0b101 ∧ s0.mode = .run ∧ s0.par.numeric = .binary64 ∧
    (after .cmdTick { s0 with cmdVx := 0x7FF0000000000000 }).obs = [⟨.skipArith .nonFinite, false⟩] ∧
    (after .cmdTick { s0 with cfgRadius := 0x8000000000000000 }).obs = [⟨.skipArith .divZero, false⟩] ∧
    (after .cmdTick { s0 with cmdVx := 0x7FE1CCF385EBC8A0 }).obs = [⟨.skipArith .nonFinite, false⟩] ∧
    (after .cmdTick { s0 with cmdVx := 0x7FE1CCF385EBC8A0, cfgRadius := 0x3FF0000000000000 }).obs =
      [⟨.skipArith .nonFinite, false⟩] ∧
    (after .cmdTick s0).obs = [⟨.ok none, false⟩] := by decide +kernel

theorem witness_KeepAliveSendsZeroFrame :
    s0.mode = .run ∧ s0.par.numeric = .binary64 ∧ B64.isZero s0.cmdVx = true ∧ B64.isZero s0.cmdVyaw = true ∧
    B64.isFinite s0.cfgSep = true ∧ B64.isFinite s0.cfgRadius = true ∧ B64.isZero s0.cfgRadius = false := by decide

theorem witness_RealKinematicsRoundTrip : (1 / 16 : ℚ) ≠ 0 ∧ (1 / 4 : ℚ) ≠ 0 := by norm_num

/-- `s1` with NUMERIC = REAL. -/
def sReal : State := { s1 with par := { s1.par with numeric := .real } }

theorem witness_RealOdomTickOutcome :
    sReal.mode = .run ∧ sReal.par.numeric = .real ∧ sReal.latestValid = true ∧ (PiRat.ofBits sReal.cfgSep).coef = 1 / 4 ∧
    (PiRat.ofBits ({ sReal with cfgSep := 0x8000000000000000 } : State).cfgSep).coef = 0 ∧
    ({ sReal with latestValid := false } : State).latestValid = false := by decide +kernel

theorem witness_RealBattTickOutcome :
    sReal.mode = .run ∧ sReal.par.numeric = .real ∧ sReal.latestValid = true ∧
    ({ sReal with latestValid := false } : State).mode = .run ∧
    ({ sReal with latestValid := false } : State).par.numeric = .real ∧
    ({ sReal with latestValid := false } : State).latestValid = false := by decide

theorem witness_RealCmdTickOutcome :
    sReal.mode = .run ∧ sReal.par.numeric = .real ∧ (PiRat.ofBits sReal.cfgRadius).coef ≠ 0 ∧
    (PiRat.ofBits ({ sReal with cfgRadius := 0 } : State).cfgRadius).coef = 0 := by decide +kernel

theorem witness_SkipCommitsNothing :
    exec .odomTick s0 = .next (after .odomTick s0) ∧ (after .odomTick s0).obs = [⟨.skipNoFrame, false⟩] ∧
    (after .cmdTick { s0 with cmdVx := 0x7FF0000000000000 }).obs = [⟨.skipArith .nonFinite, false⟩] :=
  ⟨rfl, by decide, by decide +kernel⟩

theorem witness_FatalModeInert :
    sDead.mode = .fatal ∧ Instr.cmdTick.isEvent = true ∧ (∀ c, Instr.cmdTick ≠ .reset c) ∧
    exec (.reset true) sDead = .next (after (.reset true) sDead) ∧ (after (.reset true) sDead).mode = .run :=
  ⟨by decide, by decide, by decide, rfl, by decide⟩

theorem witness_FatalModeDropsFrames : sDead.mode = .fatal := by decide

theorem witness_ResetStateIsAfterReset :
    ({ s1 with envPar := Config.params } : State).envPar = Config.params ∧
    ({ s1 with envPar := Config.params } : State).input = [] ∧ ({ s1 with envPar := Config.params } : State).tx = [] := ⟨rfl, rfl, rfl⟩

theorem witness_SentFramesPassMask :
    exec .cmdTick s0 = .next (after .cmdTick s0) ∧ (after .cmdTick s0).tx ≠ s0.tx := ⟨rfl, by decide +kernel⟩

theorem witness_EachRegisterHasOneWriter :
    exec .rxIdle s1 = .next (after .rxIdle s1) ∧ (∀ c, Instr.rxIdle ≠ .reset c) ∧ (∀ b, Instr.rxIdle ≠ .rxByte b) ∧
    Instr.rxIdle ≠ .cmdTick := ⟨rfl, by decide, by decide, by decide⟩

theorem witness_ValidBitsClearedOnlyByReset :
    (∀ c, Instr.battTick ≠ .reset c) ∧ exec .battTick s1 = .next (after .battTick s1) ∧ s1.latestValid = true ∧
    ({ s1 with measValid := true, voltValid := true } : State).measValid = true ∧
    ({ s1 with measValid := true, voltValid := true } : State).voltValid = true :=
  ⟨by decide, rfl, by decide, by decide, by decide⟩

/-- Two states that differ in what the other ticks write. -/
theorem witness_TicksAreIndependent :
    s1.mode = ({ s1 with volt := .b64 7, wheelWL := .b64 9 } : State).mode ∧
    s1.par = ({ s1 with volt := .b64 7, wheelWL := .b64 9 } : State).par ∧
    exec .cmdTick s1 = .next (after .cmdTick s1) ∧ exec .odomTick s1 = .next (after .odomTick s1) ∧
    exec .battTick s1 = .next (after .battTick s1) ∧ (after .battTick s1).obs = [⟨.ok none, false⟩] ∧
    (after .odomTick s1).obs = [⟨.ok none, false⟩] :=
  ⟨rfl, rfl, rfl, rfl, rfl, by decide, by decide +kernel⟩

theorem witness_EventsIdempotent :
    Instr.battTick.isEvent = true ∧ (∀ b, Instr.battTick ≠ .rxByte b) ∧ Instr.battTick ≠ .cmdTick ∧
    exec .battTick s1 = .next (after .battTick s1) ∧ exec .cmdTick s1 = .next (after .cmdTick s1) :=
  ⟨by decide, by decide, by decide, rfl, rfl⟩

/-- A fill, a slip, an idle, a new command and a tick. -/
def quiet : List Instr := [.rxByte 0xFF, .rxByte 1, .rxIdle, .setCmd 1 2, .cmdTick]

theorem witness_StaleTicksRepeat :
    publishesNothing quiet { s1 with winN := 6 } = true ∧
    exec .odomTick { s1 with winN := 6 } = .next (after .odomTick { s1 with winN := 6 }) ∧
    exec .odomTick (performAll quiet { s1 with winN := 6 }) =
      .next (after .odomTick (performAll quiet { s1 with winN := 6 })) ∧
    exec .battTick { s1 with winN := 6 } = .next (after .battTick { s1 with winN := 6 }) ∧
    exec .battTick (performAll quiet { s1 with winN := 6 }) =
      .next (after .battTick (performAll quiet { s1 with winN := 6 })) ∧
    (after .battTick { s1 with winN := 6 }).obs = [⟨.ok none, false⟩] ∧
    (after .odomTick { s1 with winN := 6 }).obs = [⟨.ok none, false⟩] :=
  ⟨by decide +kernel, rfl, rfl, rfl, rfl, by decide, by decide +kernel⟩

/-- A state with a published frame has the invariant, and steps. -/
theorem witness_EveryStepKeepsInvariant :
    State.Inv { s1 with input := [.word (.ev 4)] } ∧
      step { s1 with input := [.word (.ev 4)] } = .next (after .battTick s1) :=
  ⟨{ frameHeader := by decide
     frameReset := by decide
     measReset := by decide
     voltReset := by decide
     finite := by decide
     config := by decide
     frames := by decide
     strobe := by decide
     fatal := by decide }, rfl⟩

end Sys2Proof.Tests
end

/-! PROOFS. Rounding to binary64 (00_scope.md R12): the finite numbers as a grid whose quantum grows with the number, `fl` as
the nearest point of that grid, and the four operators as `fl` of the exact result. -/

namespace Sys2Proof.Machine

/-! ### The numbers that binary64 has -/

/-- Every 63 lower bits are a quantum and a significand of at most 53 bits, and of exactly 53 unless the quantum is the
least. -/
theorem B64.exists_quantum_significand (k : Nat) :
    ∃ (q : Int) (m : Nat), -1074 ≤ q ∧ m < 2 ^ 53 ∧ (q = -1074 ∨ 2 ^ 52 ≤ m) ∧ k = (q + 1074).toNat * 2 ^ 52 + m := by
  rcases Nat.lt_or_ge k (2 ^ 52) with h | h
  · exact ⟨-1074, k, by omega, by omega, .inl rfl, by omega⟩
  · exact ⟨(k / 2 ^ 52 : Nat) - 1075, 2 ^ 52 + k % 2 ^ 52, by omega, by omega, .inr (by omega), by omega⟩

/-- Encodings of one sign are ordered as their values: the next encoding has the next significand at the same quantum, a carry
included. -/
theorem B64.magValue_strictMono : StrictMono B64.magValue := by
  refine strictMono_nat_of_lt_succ fun k => ?_
  obtain ⟨q, m, hq, hm, hn, rfl⟩ := B64.exists_quantum_significand k
  rw [add_assoc, B64.magValue_pattern q m hq hm.le hn, B64.magValue_pattern q (m + 1) hq hm (by omega)]
  gcongr
  omega

/-- The absolute value of a number is its magnitude. -/
theorem B64.abs_toRat (x : B64) : |B64.toRat x| = B64.magnitude x := by
  unfold B64.toRat
  split <;> simp [abs_of_nonneg, B64.magnitude_nonneg]

/-- At any quantum, a number of binary64 is a whole number of quanta, or it has a smaller quantum and is below `2 ^ 52`
quanta. -/
theorem B64.toRat_on_grid (y : B64) (q : Int) :
    (∃ j : Int, B64.toRat y = j * (2 : ℚ) ^ q) ∨ (-1074 < q ∧ |B64.toRat y| < (2 : ℚ) ^ 52 * (2 : ℚ) ^ q) := by
  obtain ⟨p, m, hp, hm, hn, hk⟩ := B64.exists_quantum_significand (y.toNat % 2 ^ 63)
  have hmag : B64.magnitude y = m * (2 : ℚ) ^ p := by
    rw [B64.magnitude_eq, hk, B64.magValue_pattern p m hp hm.le hn]
  rcases le_or_gt q p with h | h
  · left
    obtain ⟨d, hd⟩ := Int.eq_ofNat_of_zero_le (sub_nonneg.2 h)
    have hv : B64.magnitude y = ((m * 2 ^ d : Nat) : Int) * (2 : ℚ) ^ q := by
      rw [hmag, show p = (d : Int) + q by omega, zpow_add₀ (by norm_num)]
      push_cast
      rw [zpow_natCast, mul_assoc]
    unfold B64.toRat
    split
    · exact ⟨-((m * 2 ^ d : Nat) : Int), by rw [hv]; push_cast; ring⟩
    · exact ⟨((m * 2 ^ d : Nat) : Int), hv⟩
  · right
    have hm' : (m : ℚ) < 2 ^ 53 := by exact_mod_cast hm
    refine ⟨by omega, ?_⟩
    calc |B64.toRat y| = m * (2 : ℚ) ^ p := (B64.abs_toRat y).trans hmag
      _ < 2 ^ 53 * (2 : ℚ) ^ p := by gcongr
      _ = 2 ^ 52 * (2 : ℚ) ^ (p + 1) := by rw [zpow_add₀ (by norm_num)]; ring
      _ ≤ 2 ^ 52 * (2 : ℚ) ^ q := by gcongr <;> [norm_num; omega]

/-- An encoding is finite if its 63 lower bits are below those of infinity. -/
theorem B64.isFinite_iff (x : B64) : B64.isFinite x = true ↔ x.toNat % 2 ^ 63 < 2047 * 2 ^ 52 := by
  rw [B64.isFinite, bne_iff_ne, (B64.fields_eq x).1]
  omega

/-- An encoding is a zero if its 63 lower bits are zero. -/
theorem B64.isZero_iff (x : B64) : B64.isZero x = true ↔ x.toNat % 2 ^ 63 = 0 := by
  rw [B64.isZero, Bool.and_eq_true, beq_iff_eq, beq_iff_eq, (B64.fields_eq x).1, (B64.fields_eq x).2]
  omega

/-- A finite number is no NaN. -/
theorem B64.isNaN_of_isFinite {x : B64} (h : B64.isFinite x = true) : B64.isNaN x = false := by
  rw [B64.isFinite, bne_iff_ne] at h
  simp [B64.isNaN, h]

/-- Only the zeros have magnitude zero. -/
theorem B64.magnitude_pos {x : B64} (h : B64.isZero x = false) : 0 < B64.magnitude x := by
  have hk : x.toNat % 2 ^ 63 ≠ 0 := by rwa [Ne, ← B64.isZero_iff, Bool.not_eq_true]
  have h0 : B64.magValue 0 = 0 := by simp [B64.magValue]
  rw [B64.magnitude_eq, ← h0]
  exact B64.magValue_strictMono (Nat.pos_of_ne_zero hk)

/-- A number other than zero has the sign of its encoding. -/
theorem B64.toRat_neg_iff {x : B64} (h : B64.isZero x = false) : B64.toRat x < 0 ↔ B64.neg x = true := by
  have hm := B64.magnitude_pos h
  unfold B64.toRat
  split
  · simp [*]
  · simpa [*] using hm.le

/-- Two encodings of one number other than zero are the same. -/
theorem B64.eq_of_toRat_eq {x y : B64} (h : B64.toRat x = B64.toRat y) (hx : B64.isZero x = false)
    (hy : B64.isZero y = false) : x = y := by
  have hs : B64.neg x = B64.neg y := by
    rw [Bool.eq_iff_iff, ← B64.toRat_neg_iff hx, ← B64.toRat_neg_iff hy, h]
  have hm : x.toNat % 2 ^ 63 = y.toNat % 2 ^ 63 := by
    apply B64.magValue_strictMono.injective
    rw [← B64.magnitude_eq, ← B64.magnitude_eq, ← B64.abs_toRat, ← B64.abs_toRat, h]
  rw [← B64.ofSignMag_fields x, ← B64.ofSignMag_fields y, hs, hm]

/-- The overflow threshold of R12, in quanta of the largest finite number. -/
theorem B64.threshold_eq : (2 : ℚ) ^ 1024 - 2 ^ 970 = (2 ^ 53 - 1 / 2) * (2 : ℚ) ^ (971 : Int) := by
  have e1024 : (2 : ℚ) ^ 1024 = 2 ^ 54 * 2 ^ 970 := by rw [← pow_add]
  have e971 : (2 : ℚ) ^ (971 : Int) = 2 * 2 ^ 970 := by rw [← pow_succ', ← zpow_natCast]; rfl
  rw [e1024, e971]
  generalize (2 : ℚ) ^ 970 = p
  ring

/-- The largest finite number is `2 ^ 53 - 1` of the largest quanta. -/
theorem B64.magValue_largest : B64.magValue (2047 * 2 ^ 52 - 1) = (2 ^ 53 - 1) * (2 : ℚ) ^ (971 : Int) := by
  have h := B64.magValue_pattern 971 (2 ^ 53 - 1) (by norm_num) (by norm_num) (.inr (by norm_num))
  rwa [Nat.cast_sub (by norm_num), Nat.cast_pow, Nat.cast_ofNat, Nat.cast_one] at h

/-- Every finite number lies below the overflow threshold. -/
theorem B64.abs_toRat_lt {x : B64} (h : B64.isFinite x = true) : |B64.toRat x| < 2 ^ 1024 - 2 ^ 970 := by
  rw [B64.isFinite_iff] at h
  rw [B64.abs_toRat, B64.magnitude_eq, B64.threshold_eq]
  calc B64.magValue (x.toNat % 2 ^ 63)
      ≤ B64.magValue (2047 * 2 ^ 52 - 1) := B64.magValue_strictMono.monotone (by omega)
    _ = (2 ^ 53 - 1) * (2 : ℚ) ^ (971 : Int) := B64.magValue_largest
    _ < (2 ^ 53 - 1 / 2) * (2 : ℚ) ^ (971 : Int) := by gcongr; norm_num

/-! ### Rounding at a quantum -/

/-- `M` is the significand, with its sign, to which R12 rounds `e` at the quantum `2 ^ q`: the integer nearest to `e` in
quanta, the even one of two, at a quantum that gives `e` 53 bits, or fewer if the quantum is the least. -/
structure B64.RoundsTo (e : ℚ) (q M : Int) : Prop where
  least_le : -1074 ≤ q
  normal : q = -1074 ∨ (2 : ℚ) ^ 52 * (2 : ℚ) ^ q ≤ |e|
  lt : |e| < (2 : ℚ) ^ 53 * (2 : ℚ) ^ q
  natAbs_le : M.natAbs ≤ 2 ^ 53
  natAbs_normal : q = -1074 ∨ 2 ^ 52 ≤ M.natAbs
  near : |(M : ℚ) - e / (2 : ℚ) ^ q| ≤ 1 / 2
  even : |(M : ℚ) - e / (2 : ℚ) ^ q| = 1 / 2 → M.natAbs % 2 = 0

/-- The distance of `j` quanta from `e`, in quanta. -/
theorem B64.abs_quanta_sub (j q : Int) (e : ℚ) :
    |(j : ℚ) * (2 : ℚ) ^ q - e| = |(j : ℚ) - e / (2 : ℚ) ^ q| * (2 : ℚ) ^ q := by
  have hp : (0 : ℚ) < (2 : ℚ) ^ q := by positivity
  rw [← abs_of_pos hp, ← abs_mul, abs_of_pos hp, sub_mul, div_mul_cancel₀ _ hp.ne']

section
variable {e : ℚ} {q M : Int}

/-- Rounding `-e` is rounding `e`, with the other sign. -/
theorem B64.RoundsTo.neg (h : B64.RoundsTo e q M) : B64.RoundsTo (-e) q (-M) := by
  have hd : |((-M : Int) : ℚ) - -e / (2 : ℚ) ^ q| = |(M : ℚ) - e / (2 : ℚ) ^ q| := by
    rw [← abs_neg]
    congr 1
    push_cast
    ring
  refine ⟨h.least_le, ?_, ?_, ?_, ?_, ?_, ?_⟩
  · rw [abs_neg]; exact h.normal
  · rw [abs_neg]; exact h.lt
  · rw [Int.natAbs_neg]; exact h.natAbs_le
  · rw [Int.natAbs_neg]; exact h.natAbs_normal
  · rw [hd]; exact h.near
  · rw [hd, Int.natAbs_neg]; exact h.even

/-- A number that is not negative is not rounded to a negative one. -/
theorem B64.RoundsTo.nonneg (h : B64.RoundsTo e q M) (he : 0 ≤ e) : 0 ≤ M := by
  have hx : 0 ≤ e / (2 : ℚ) ^ q := by positivity
  have hM : (-1 : ℚ) < M := by
    have := (abs_le.1 h.near).1
    linarith
  have : (-1 : Int) < M := by exact_mod_cast hM
  omega

/-- Any other integer is at least half a quantum away. -/
theorem B64.RoundsTo.half_le (h : B64.RoundsTo e q M) {j : Int} (hj : j ≠ M) : 1 / 2 ≤ |(j : ℚ) - e / (2 : ℚ) ^ q| := by
  have h1 : (1 : ℚ) ≤ |(j : ℚ) - M| := by exact_mod_cast Int.one_le_abs (sub_ne_zero.2 hj)
  have h2 := abs_sub_le (j : ℚ) (e / (2 : ℚ) ^ q) M
  rw [abs_sub_comm (e / (2 : ℚ) ^ q) (M : ℚ)] at h2
  linarith [h.near]

/-- No whole number of quanta is nearer to `e` than `M` quanta. -/
theorem B64.RoundsTo.nearest_quanta (h : B64.RoundsTo e q M) (j : Int) :
    |(M : ℚ) * (2 : ℚ) ^ q - e| ≤ |(j : ℚ) * (2 : ℚ) ^ q - e| := by
  by_cases hj : j = M
  · rw [hj]
  · rw [B64.abs_quanta_sub, B64.abs_quanta_sub]
    exact mul_le_mul_of_nonneg_right (h.near.trans (h.half_le hj)) (by positivity)

/-- If another whole number of quanta is equally near, `M` is even. -/
theorem B64.RoundsTo.even_of_tie (h : B64.RoundsTo e q M) {j : Int} (hj : j ≠ M)
    (ht : |(M : ℚ) * (2 : ℚ) ^ q - e| = |(j : ℚ) * (2 : ℚ) ^ q - e|) : M.natAbs % 2 = 0 := by
  have hp : (0 : ℚ) < (2 : ℚ) ^ q := by positivity
  rw [B64.abs_quanta_sub, B64.abs_quanta_sub, mul_left_inj' hp.ne'] at ht
  exact h.even (le_antisymm h.near (ht ▸ h.half_le hj))

/-- A number below `2 ^ 52` quanta is farther from `e` than `M` quanta, because `2 ^ 52` quanta lie between. -/
theorem B64.RoundsTo.lt_of_below (h : B64.RoundsTo e q M) {v : ℚ} (hq : -1074 < q)
    (hv : |v| < (2 : ℚ) ^ 52 * (2 : ℚ) ^ q) : |(M : ℚ) * (2 : ℚ) ^ q - e| < |v - e| := by
  have he : (2 : ℚ) ^ 52 * (2 : ℚ) ^ q ≤ |e| := h.normal.resolve_left (by omega)
  have hdist : |e| - |v| ≤ |v - e| := abs_sub_comm v e ▸ abs_sub_abs_le_abs_sub e v
  rcases le_total 0 e with h0 | h0
  · rw [abs_of_nonneg h0] at he hdist
    have hM := h.nearest_quanta (2 ^ 52)
    rw [Int.cast_pow, Int.cast_ofNat, abs_of_nonpos (sub_nonpos.2 he)] at hM
    linarith
  · rw [abs_of_nonpos h0] at he hdist
    have hM := h.nearest_quanta (-2 ^ 52)
    rw [Int.cast_neg, Int.cast_pow, Int.cast_ofNat, abs_of_nonneg (a := -2 ^ 52 * (2 : ℚ) ^ q - e) (by linarith)] at hM
    linarith

/-- No number of binary64 is nearer to `e` than `M` quanta. -/
theorem B64.RoundsTo.nearest (h : B64.RoundsTo e q M) (y : B64) :
    |(M : ℚ) * (2 : ℚ) ^ q - e| ≤ |B64.toRat y - e| := by
  rcases B64.toRat_on_grid y q with ⟨j, hj⟩ | ⟨hq, hy⟩
  · rw [hj]
    exact h.nearest_quanta j
  · exact (h.lt_of_below hq hy).le

/-- The significand is carried to `2 ^ 53` exactly from half a quantum below on, because `2 ^ 53 - 1` is odd. -/
theorem B64.RoundsTo.natAbs_lt_iff (h : B64.RoundsTo e q M) :
    M.natAbs < 2 ^ 53 ↔ |e| < (2 ^ 53 - 1 / 2) * (2 : ℚ) ^ q := by
  have hp : (0 : ℚ) < (2 : ℚ) ^ q := by positivity
  have hdist : |(M.natAbs : ℚ) - |e| / (2 : ℚ) ^ q| ≤ |(M : ℚ) - e / (2 : ℚ) ^ q| := by
    simpa [abs_div, abs_of_pos hp] using abs_abs_sub_abs_le (M : ℚ) (e / (2 : ℚ) ^ q)
  have hnear := abs_le.1 (hdist.trans h.near)
  rw [← div_lt_iff₀ hp]
  constructor
  · intro hM
    have hM' : (M.natAbs : ℚ) + 1 ≤ 2 ^ 53 := by exact_mod_cast hM
    by_contra hge
    have htie : |(M : ℚ) - e / (2 : ℚ) ^ q| = 1 / 2 := by
      have := neg_abs_le ((M.natAbs : ℚ) - |e| / (2 : ℚ) ^ q)
      exact le_antisymm h.near (by linarith)
    have hmax : (2 : ℚ) ^ 53 ≤ (M.natAbs : ℚ) + 1 := by linarith
    have hmax' : 2 ^ 53 ≤ M.natAbs + 1 := by exact_mod_cast hmax
    have := h.even htie
    omega
  · intro he
    have hM : (M.natAbs : ℚ) < 2 ^ 53 := by linarith
    exact_mod_cast hM

/-- The encoding of `M` quanta lies below that of infinity exactly if `e` lies below the overflow threshold: at a quantum below
the largest both hold, above it neither does, and at the largest the significand decides. -/
theorem B64.RoundsTo.finite_iff (h : B64.RoundsTo e q M) :
    (q + 1074).toNat * 2 ^ 52 + M.natAbs < 2047 * 2 ^ 52 ↔ |e| < 2 ^ 1024 - 2 ^ 970 := by
  have hmax := h.natAbs_le
  have hmin := h.natAbs_normal
  rw [B64.threshold_eq]
  rcases lt_trichotomy q 971 with hq | rfl | hq
  · refine iff_of_true (by omega) ?_
    calc |e| < 2 ^ 53 * (2 : ℚ) ^ q := h.lt
      _ = 2 ^ 52 * (2 : ℚ) ^ (q + 1) := by rw [zpow_add₀ (by norm_num)]; ring
      _ ≤ 2 ^ 52 * (2 : ℚ) ^ (971 : Int) := by gcongr <;> [norm_num; omega]
      _ ≤ (2 ^ 53 - 1 / 2) * (2 : ℚ) ^ (971 : Int) := by gcongr; norm_num
  · rw [← h.natAbs_lt_iff]
    omega
  · refine iff_of_false (by omega) (not_lt.2 ?_)
    calc (2 ^ 53 - 1 / 2) * (2 : ℚ) ^ (971 : Int) ≤ 2 ^ 53 * (2 : ℚ) ^ (971 : Int) := by gcongr; norm_num
      _ = 2 ^ 52 * (2 : ℚ) ^ ((971 : Int) + 1) := by
        rw [zpow_add₀ (by norm_num)]
        generalize (2 : ℚ) ^ (971 : Int) = p
        ring
      _ ≤ 2 ^ 52 * (2 : ℚ) ^ q := by gcongr <;> [norm_num; omega]
      _ ≤ |e| := h.normal.resolve_left (by omega)

end

/-! ### What `fl` is -/

/-- The lower bits of an encoding built from a sign and 63 lower bits. -/
theorem B64.ofSignMag_toNat_mod (s : Bool) (m : Nat) (h : m < 2 ^ 63) : (B64.ofSignMag s m).toNat % 2 ^ 63 = m := by
  obtain ⟨-, he, hf⟩ := B64.fields_ofSignMag s m h
  rw [(B64.fields_eq _).1] at he
  rw [(B64.fields_eq _).2] at hf
  omega

/-- Zero is rounded to zero quanta. -/
theorem B64.RoundsTo.zero : B64.RoundsTo 0 (-1074) 0 := by
  refine ⟨le_rfl, .inl rfl, ?_, by norm_num, .inl rfl, ?_, ?_⟩
  · rw [abs_zero]
    positivity
  · norm_num
  · norm_num

/-- What `roundNat` does to a positive number, as a rounding of the quotient. -/
theorem B64.roundNat_roundsTo (n d : Nat) (hn : 0 < n) (hd : 0 < d) :
    ∃ (q : Int) (m : Nat), B64.RoundsTo ((n : ℚ) / d) q m ∧
      B64.roundNat n d = Min.min ((q + 1074).toNat * 2 ^ 52 + m) (2047 * 2 ^ 52) := by
  obtain ⟨q, m, hq, hm, hn', hlow, hlt, hnear, heven, hr⟩ := B64.roundNat_spec n d hn hd
  have habs : |(n : ℚ) / d| = (n : ℚ) / d := abs_of_nonneg (by positivity)
  exact ⟨q, m, ⟨hq, by rwa [habs], by rwa [habs], hm, hn', hnear, heven⟩, hr⟩

/-- What `fl` rounds to: a significand at a quantum, encoded with the sign of `e`, or infinity where that has no encoding. -/
theorem B64.fl_roundsTo (z : Bool) (e : ℚ) :
    ∃ q M : Int, B64.RoundsTo e q M ∧ B64.neg (B64.fl z e) = (if e = 0 then z else decide (e < 0)) ∧
      (B64.fl z e).toNat % 2 ^ 63 = Min.min ((q + 1074).toNat * 2 ^ 52 + M.natAbs) (2047 * 2 ^ 52) := by
  have hlt : B64.roundNat e.num.natAbs e.den < 2 ^ 63 := by
    unfold B64.roundNat
    dsimp only
    split <;> omega
  have hneg : B64.neg (B64.fl z e) = (if e = 0 then z else decide (e < 0)) := by
    rw [B64.fl, (B64.fields_ofSignMag _ _ hlt).1]
    simp only [Rat.num_eq_zero, Rat.num_neg]
  have hbits : (B64.fl z e).toNat % 2 ^ 63 = B64.roundNat e.num.natAbs e.den := B64.ofSignMag_toNat_mod _ _ hlt
  rcases eq_or_ne e 0 with rfl | he
  · exact ⟨-1074, 0, .zero, hneg, by rw [hbits]; rfl⟩
  · obtain ⟨q, m, hr, hm⟩ := B64.roundNat_roundsTo e.num.natAbs e.den (by simpa [Int.natAbs_pos] using he) e.den_pos
    have habs : (e.num.natAbs : ℚ) / e.den = |e| := by
      rw [Nat.cast_natAbs, Int.cast_abs]
      conv_rhs => rw [← Rat.num_div_den e, abs_div, Nat.abs_cast]
    rw [habs] at hr
    rcases le_total 0 e with h0 | h0
    · exact ⟨q, m, abs_of_nonneg h0 ▸ hr, hneg, by rw [hbits, hm]; rfl⟩
    · refine ⟨q, -m, ?_, hneg, by rw [hbits, hm, Int.natAbs_neg]; rfl⟩
      simpa [abs_of_nonpos h0] using hr.neg

/-- `fl` is finite exactly below the overflow threshold (R12). -/
theorem B64.isFinite_fl_iff (z : Bool) (e : ℚ) : B64.isFinite (B64.fl z e) = true ↔ |e| < 2 ^ 1024 - 2 ^ 970 := by
  obtain ⟨q, M, hr, -, hbits⟩ := B64.fl_roundsTo z e
  rw [B64.isFinite_iff, hbits, ← hr.finite_iff]
  omega

/-- A finite `fl` has the value, and the lowest bit, of the significand it rounds to. -/
theorem B64.fl_of_isFinite {z : Bool} {e : ℚ} (h : B64.isFinite (B64.fl z e) = true) :
    ∃ q M : Int, B64.RoundsTo e q M ∧ B64.toRat (B64.fl z e) = M * (2 : ℚ) ^ q ∧
      (B64.fl z e).toNat % 2 = M.natAbs % 2 := by
  obtain ⟨q, M, hr, hneg, hbits⟩ := B64.fl_roundsTo z e
  rw [B64.isFinite_iff] at h
  rw [min_eq_left (by omega)] at hbits
  have hmag : B64.magnitude (B64.fl z e) = |(M : ℚ)| * (2 : ℚ) ^ q := by
    rw [B64.magnitude_eq, hbits, B64.magValue_pattern q M.natAbs hr.least_le hr.natAbs_le hr.natAbs_normal,
      Nat.cast_natAbs, Int.cast_abs]
  refine ⟨q, M, hr, ?_, by omega⟩
  rw [B64.toRat, hneg, hmag]
  rcases lt_trichotomy e 0 with he | rfl | he
  · have hM : (M : ℚ) ≤ 0 := by
      have := hr.neg.nonneg (by linarith)
      exact_mod_cast (show M ≤ 0 by omega)
    simp [he, he.ne, abs_of_nonpos hM]
  · have hM : M = 0 := by
      have := hr.nonneg le_rfl
      have := hr.neg.nonneg (by norm_num)
      omega
    simp [hM]
  · have hM : (0 : ℚ) ≤ M := by exact_mod_cast hr.nonneg he.le
    simp [he.not_gt, he.ne', abs_of_nonneg hM]

/-- `fl` is nearest: no number of binary64 is nearer to `e` (R12). -/
theorem B64.fl_nearest {z : Bool} {e : ℚ} (h : B64.isFinite (B64.fl z e) = true) (y : B64) :
    |B64.toRat (B64.fl z e) - e| ≤ |B64.toRat y - e| := by
  obtain ⟨q, M, hr, hv, -⟩ := B64.fl_of_isFinite h
  rw [hv]
  exact hr.nearest y

/-- `fl` keeps a finite number other than zero (R12). -/
theorem B64.fl_toRat (z : Bool) {y : B64} (hf : B64.isFinite y = true) (hz : B64.isZero y = false) :
    B64.fl z (B64.toRat y) = y := by
  have hfin : B64.isFinite (B64.fl z (B64.toRat y)) = true := (B64.isFinite_fl_iff z _).2 (B64.abs_toRat_lt hf)
  have hval : B64.toRat (B64.fl z (B64.toRat y)) = B64.toRat y := by
    have h := B64.fl_nearest hfin y
    rw [sub_self, abs_zero] at h
    exact sub_eq_zero.1 (abs_nonpos_iff.1 h)
  have hz' : B64.isZero (B64.fl z (B64.toRat y)) = false := by
    have hpos := B64.magnitude_pos hz
    rw [← B64.abs_toRat, ← hval, B64.abs_toRat, B64.magnitude_eq] at hpos
    rw [← Bool.not_eq_true, B64.isZero_iff]
    intro h0
    rw [h0] at hpos
    simp [B64.magValue] at hpos
  exact B64.eq_of_toRat_eq hval hz' hz

/-! ### The operators on finite operands -/

/-- Changing the sign keeps the 63 lower bits. -/
theorem B64.negate_fields (x : B64) :
    B64.neg (B64.negate x) = !B64.neg x ∧ B64.expField (B64.negate x) = B64.expField x ∧
      B64.frac (B64.negate x) = B64.frac x := by
  have hs : (0x8000000000000000 : B64).msb = true := by decide
  have he : (0x8000000000000000 : B64).extractLsb' 52 11 = 0 := by decide
  have hf : (0x8000000000000000 : B64).extractLsb' 0 52 = 0 := by decide
  refine ⟨?_, ?_, ?_⟩
  · rw [B64.neg, B64.negate, BitVec.msb_xor, hs, Bool.xor_true, B64.neg]
  · rw [B64.expField, B64.negate, BitVec.extractLsb'_xor, he]
    simp [B64.expField]
  · rw [B64.frac, B64.negate, BitVec.extractLsb'_xor, hf]
    simp [B64.frac]

/-- Changing the sign keeps finiteness. -/
theorem B64.isFinite_negate (x : B64) : B64.isFinite (B64.negate x) = B64.isFinite x := by
  rw [B64.isFinite, B64.isFinite, (B64.negate_fields x).2.1]

/-- Changing the sign negates the value. -/
theorem B64.toRat_negate (x : B64) : B64.toRat (B64.negate x) = -B64.toRat x := by
  obtain ⟨hn, he, hf⟩ := B64.negate_fields x
  have hm : B64.magnitude (B64.negate x) = B64.magnitude x := by rw [B64.magnitude, B64.magnitude, he, hf]
  rw [B64.toRat, B64.toRat, hn, hm]
  cases B64.neg x <;> simp

section
variable {x y : B64} (hx : B64.isFinite x = true) (hy : B64.isFinite y = true)
include hx hy

/-- The sum of finite numbers is the exact sum, rounded once (R12). -/
theorem B64.add_of_isFinite :
    B64.add x y = B64.fl (B64.neg x && B64.neg y) (B64.toRat x + B64.toRat y) := by
  simp [B64.add, B64.isNaN_of_isFinite, hx, hy]

/-- The difference of finite numbers is the exact difference, rounded once (R12). -/
theorem B64.sub_of_isFinite :
    B64.sub x y = B64.fl (B64.neg x && !B64.neg y) (B64.toRat x - B64.toRat y) := by
  rw [B64.sub, B64.add_of_isFinite hx (by rwa [B64.isFinite_negate]), B64.toRat_negate, (B64.negate_fields y).1,
    sub_eq_add_neg]

/-- The product of finite numbers is the exact product, rounded once (R12). -/
theorem B64.mul_of_isFinite :
    B64.mul x y = B64.fl (B64.neg x != B64.neg y) (B64.toRat x * B64.toRat y) := by
  simp [B64.mul, B64.isNaN_of_isFinite, hx, hy]

/-- The quotient of finite numbers is the exact quotient, rounded once (R12). -/
theorem B64.div_of_isFinite (hz : B64.isZero y = false) :
    B64.div x y = B64.fl (B64.neg x != B64.neg y) (B64.toRat x / B64.toRat y) := by
  simp [B64.div, B64.isNaN_of_isFinite, hx, hy, hz]

end

/-! ### The statements -/

/-- Settles O23: `fl` is nearest to `e` among all numbers of the grid. -/
theorem roundingIsNearest : Obligations.RoundingIsNearest := by
  intro z e y hfl _
  exact B64.fl_nearest hfl y

/-- Settles O24: an equally near number is another whole number of quanta, since one of a smaller quantum is farther away. -/
theorem roundingTiesToEven : Obligations.RoundingTiesToEven := by
  intro z e y hfl _ htie hne
  obtain ⟨q, M, hr, hv, hbit⟩ := B64.fl_of_isFinite hfl
  rw [hv] at htie hne
  have heven : M.natAbs % 2 = 0 := by
    rcases B64.toRat_on_grid y q with ⟨j, hj⟩ | ⟨hq, hy⟩
    · rw [hj] at htie hne
      exact hr.even_of_tie (fun h => hne (by rw [h])) htie
    · exact absurd htie (hr.lt_of_below hq hy).ne
  rw [← BitVec.testBit_toNat, Nat.testBit_zero, hbit, heven]
  rfl

/-- Settles O25: `fl` is at distance zero from a number of the grid, and only zero has two encodings. -/
theorem roundingKeepsRepresentable : Obligations.RoundingKeepsRepresentable := by
  intro z y hf hz
  exact B64.fl_toRat z hf hz

/-- Settles O26, by the quantum at which `e` is rounded. -/
theorem roundingOverflowThreshold : Obligations.RoundingOverflowThreshold := by
  intro z e
  exact B64.isFinite_fl_iff z e

/-- Settles O27: each operator is `fl` of the exact result. -/
theorem operatorsCorrectlyRounded : Obligations.OperatorsCorrectlyRounded := by
  intro x y z hx hy _
  refine ⟨fun h => ?_, fun h => ?_, fun h => ?_, fun hz h => ?_⟩
  · rw [B64.add_of_isFinite hx hy] at h ⊢
    exact B64.fl_nearest h z
  · rw [B64.sub_of_isFinite hx hy] at h ⊢
    exact B64.fl_nearest h z
  · rw [B64.mul_of_isFinite hx hy] at h ⊢
    exact B64.fl_nearest h z
  · rw [B64.div_of_isFinite hx hy hz] at h ⊢
    exact B64.fl_nearest h z

end Sys2Proof.Machine

/-! PROOFS. NUMERIC = REAL (00_scope.md R12; log entries 10 to 12): the arithmetic of numbers `c * π ^ k` in canonical form,
the solvers and the encoder over it, and the three ticks. -/

namespace Sys2Proof.Machine

/-! ### Canonical numbers -/

/-- A rational number in canonical form. -/
theorem PiRat.ofRat_eq (c : ℚ) : PiRat.ofRat c = PiRat.mk' c 0 := by
  unfold PiRat.ofRat PiRat.mk'
  split <;> simp [*]

/-- What a binary64 word stands for is rational. -/
theorem PiRat.ofBits_eq (x : B64) : PiRat.ofBits x = PiRat.mk' (PiRat.ofBits x).coef 0 := PiRat.ofRat_eq _

@[simp] theorem PiRat.mk'_coef (c : ℚ) (k : Int) : (PiRat.mk' c k).coef = c := by
  unfold PiRat.mk'
  split <;> simp [*]

@[simp] theorem PiRat.mk'_zero (k : Int) : PiRat.mk' 0 k = ⟨0, 0⟩ := if_pos rfl

theorem PiRat.mk'_of_ne {c : ℚ} (h : c ≠ 0) (k : Int) : PiRat.mk' c k = ⟨c, k⟩ := if_neg h

@[simp] theorem PiRat.add_mk' (a b : ℚ) (k : Int) :
    PiRat.add (PiRat.mk' a k) (PiRat.mk' b k) = PiRat.mk' (a + b) k := by
  by_cases ha : a = 0
  · simp [PiRat.add, ha]
  · by_cases hb : b = 0
    · simp [PiRat.add, ha, hb]
    · simp [PiRat.add, PiRat.mk'_of_ne, ha, hb]

@[simp] theorem PiRat.neg_mk' (a : ℚ) (k : Int) : PiRat.neg (PiRat.mk' a k) = PiRat.mk' (-a) k := by
  by_cases ha : a = 0
  · simp [PiRat.neg, ha]
  · simp [PiRat.neg, PiRat.mk'_of_ne, ha]

@[simp] theorem PiRat.sub_mk' (a b : ℚ) (k : Int) :
    PiRat.sub (PiRat.mk' a k) (PiRat.mk' b k) = PiRat.mk' (a - b) k := by
  rw [PiRat.sub, PiRat.neg_mk', PiRat.add_mk', sub_eq_add_neg]

@[simp] theorem PiRat.mul_mk' (a b : ℚ) (k l : Int) :
    PiRat.mul (PiRat.mk' a k) (PiRat.mk' b l) = PiRat.mk' (a * b) (k + l) := by
  by_cases ha : a = 0
  · simp [PiRat.mul, ha]
  · by_cases hb : b = 0
    · simp [PiRat.mul, hb]
    · simp [PiRat.mul, PiRat.mk'_of_ne ha, PiRat.mk'_of_ne hb]

@[simp] theorem PiRat.div_mk' (a b : ℚ) (k l : Int) :
    PiRat.div (PiRat.mk' a k) (PiRat.mk' b l) = PiRat.mk' (a / b) (k - l) := by
  by_cases ha : a = 0
  · simp [PiRat.div, ha]
  · by_cases hb : b = 0
    · simp [PiRat.div, hb]
    · simp [PiRat.div, PiRat.mk'_of_ne ha, PiRat.mk'_of_ne hb]

@[simp] theorem PiRat.abs_mk' (a : ℚ) (k : Int) : PiRat.abs (PiRat.mk' a k) = PiRat.mk' |a| k := by
  by_cases ha : a = 0
  · simp [PiRat.abs, ha]
  · simp [PiRat.abs, PiRat.mk'_of_ne, ha]

/-! ### The operations over the reals -/

@[simp] theorem arithReal_ofBits (x : B64) : arithReal.ofBits x = PiRat.ofBits x := rfl
@[simp] theorem arithReal_toNum (x : PiRat) : arithReal.toNum x = .real x := rfl
@[simp] theorem arithReal_ofInt (k : Int) : arithReal.ofInt k = PiRat.mk' k 0 := PiRat.ofRat_eq k
@[simp] theorem arithReal_twoPi : arithReal.twoPi = PiRat.mk' 2 1 := (PiRat.mk'_of_ne (by norm_num) 1).symm
@[simp] theorem arithReal_add (x y : PiRat) : arithReal.add x y = PiRat.add x y := rfl
@[simp] theorem arithReal_sub (x y : PiRat) : arithReal.sub x y = PiRat.sub x y := rfl
@[simp] theorem arithReal_mul (x y : PiRat) : arithReal.mul x y = PiRat.mul x y := rfl
@[simp] theorem arithReal_div (x y : PiRat) : arithReal.div x y = PiRat.div x y := rfl
@[simp] theorem arithReal_isFinite (x : PiRat) : arithReal.isFinite x = true := rfl
@[simp] theorem arithReal_isZero (x : PiRat) : arithReal.isZero x = decide (x.coef = 0) := rfl
@[simp] theorem arithReal_geZero (x : PiRat) : arithReal.geZero x = decide (0 ≤ x.coef) := rfl

/-! ### Decoder and solvers over the reals -/

/-- DEC_WHEEL over the reals (R123): a rational multiple of π. -/
theorem decWheel_real (v : Nat) : decWheel arithReal v = PiRat.mk' (((v : ℚ) - 500) * 100 / 1560 * 2) 1 := by
  simp [decWheel, Config.speedOffset, Config.tickNum, Config.tickDen]

/-- DEC_VOLT over the reals (R124). -/
theorem decVolt_real (b : Nat) : decVolt arithReal b = ⟨(b : ℚ) / 100, 0⟩ := by
  have h : decVolt arithReal b = PiRat.mk' ((b : ℚ) / 100) 0 := by simp [decVolt, Config.voltDiv]
  exact h.trans (PiRat.ofRat_eq _).symm

/-- KIN_FWD over the reals (R141; R203): only a zero separation fails. -/
theorem kinFwd_real (wl wr r l : ℚ) (k : Int) :
    kinFwd arithReal (PiRat.mk' wl k) (PiRat.mk' wr k) (PiRat.mk' r 0) (PiRat.mk' l 0) =
      if l = 0 then .error .divZero
      else .ok (PiRat.mk' ((wr * r + wl * r) / 2) k, PiRat.mk' ((wr * r - wl * r) / l) k) := by
  simp [kinFwd]

/-- KIN_INV over the reals (R142; R203): only a zero radius fails. -/
theorem kinInv_real (vx vyaw r l : ℚ) :
    kinInv arithReal (PiRat.mk' vx 0) (PiRat.mk' vyaw 0) (PiRat.mk' r 0) (PiRat.mk' l 0) =
      if r = 0 then .error .divZero
      else .ok (PiRat.mk' ((vx - l / 2 * vyaw) / r) 0, PiRat.mk' ((vx + l / 2 * vyaw) / r) 0) := by
  simp [kinInv]

/-- The measurement of an ODOM_TICK over the reals. -/
theorem measureWith_real (s : State) :
    let r := (PiRat.ofBits s.cfgRadius).coef
    let l := (PiRat.ofBits s.cfgSep).coef
    let wl : ℚ := ((frameLeft s.latestFrame : ℚ) - 500) * 100 / 1560 * 2
    let wr : ℚ := ((frameRight s.latestFrame : ℚ) - 500) * 100 / 1560 * 2
    measureWith arithReal s =
      if l = 0 then .error .divZero
      else .ok ⟨.real (PiRat.mk' wl 1), .real (PiRat.mk' wr 1), .real (PiRat.mk' ((wr * r + wl * r) / 2) 1),
        .real (PiRat.mk' ((wr * r - wl * r) / l) 1)⟩ := by
  intro r l wl wr
  have hk := kinFwd_real wl wr r l 1
  rw [← PiRat.ofBits_eq, ← PiRat.ofBits_eq] at hk
  simp only [measureWith, decMotion, decWheel_real, arithReal_ofBits, arithReal_toNum]
  by_cases hl : l = 0
  · rw [if_pos hl] at hk ⊢
    rw [hk]
  · rw [if_neg hl] at hk ⊢
    rw [hk]

/-! ### Encoder over the reals -/

/-- ENC_TICKS over the reals (R161). -/
theorem encTicks_real (w : ℚ) : encTicks arithReal (PiRat.mk' w 0) = .ok (realTicks w) := by
  simp [encTicks, realTicks, Config.tickDen, Config.tickNum]

/-- ENC_DIR over the reals (R162): a tick value has the sign of its wheel speed. -/
theorem encDir_realTicks (w : ℚ) : encDir arithReal (realTicks w) = realDirection w := by
  have hsign : 0 ≤ w / 2 * 1560 / 100 ↔ 0 ≤ w := by constructor <;> intro h <;> linarith
  simp only [encDir, realTicks, realDirection, arithReal_geZero, PiRat.mk'_coef, decide_eq_true_eq, hsign]
  rfl

/-- The floor of `|a|` does not depend on the sign of `a`. -/
theorem PiRat.absFloor_abs (a : PiRat) : PiRat.absFloor (PiRat.abs a) = PiRat.absFloor a := by
  obtain ⟨c, k⟩ := a
  have hnum : (|c|).num.natAbs = c.num.natAbs := by
    rcases abs_choice c with h | h <;> simp [h]
  have hden : (|c|).den = c.den := by
    rcases abs_choice c with h | h <;> simp [h]
  simp only [PiRat.absFloor, PiRat.abs, hnum, hden]

/-- The nearest integer to `|a|` does not depend on the sign of `a`. -/
theorem PiRat.absNearestEven_abs (a : PiRat) : PiRat.absNearestEven (PiRat.abs a) = PiRat.absNearestEven a := by
  obtain ⟨c, k⟩ := a
  have hfloor : PiRat.absFloor (PiRat.mk' (2 * |c|) k) = PiRat.absFloor (PiRat.mk' (2 * c) k) := by
    rw [← PiRat.absFloor_abs (PiRat.mk' (2 * c) k), PiRat.abs_mk', abs_mul, abs_two]
  simp only [PiRat.absNearestEven, PiRat.abs, hfloor, abs_abs]

/-- ENC_QUANT of the clamped value over the reals (R163, R164). -/
theorem encQuant_clamp_real (q : MagQuant) (t : PiRat) :
    encQuant arithReal q (encClamp arithReal t) = realMagnitude q t := by
  have htop : PiRat.absFloor (PiRat.ofRat Config.magMax) = 255 := by decide +kernel
  have htop' : PiRat.absNearestEven (PiRat.ofRat Config.magMax) = 255 := by decide +kernel
  have hclamp : encClamp arithReal t =
      if 255 ≤ PiRat.absFloor t then PiRat.ofRat Config.magMax else PiRat.abs t := rfl
  rw [hclamp]
  cases q with
  | trunc =>
    show BitVec.ofNat 8 (PiRat.absFloor _) = BitVec.ofNat 8 (Min.min (PiRat.absFloor t) 255)
    split
    · rw [htop, min_eq_right ‹_›]
    · rw [PiRat.absFloor_abs, min_eq_left (by omega)]
  | rne =>
    show BitVec.ofNat 8 (PiRat.absNearestEven _) = if _ then _ else _
    split
    · rw [htop']
      rfl
    · rw [PiRat.absNearestEven_abs]

/-- ENC_WHEEL over the reals (R165). -/
theorem encWheel_real (q : MagQuant) (w : ℚ) :
    encWheel arithReal q (PiRat.mk' w 0) = .ok (realMagnitude q (realTicks w), realDirection w) := by
  rw [encWheel_ok_iff]
  exact ⟨_, encTicks_real w, (encQuant_clamp_real q _).symm, (encDir_realTicks w).symm⟩

/-- ENCODE over the reals (R167): only a zero radius fails. -/
theorem encodeCommand_real (q : MagQuant) (vx vyaw r l : ℚ) :
    let wr := (vx + l / 2 * vyaw) / r
    let wl := (vx - l / 2 * vyaw) / r
    encodeCommand arithReal q (PiRat.mk' vx 0) (PiRat.mk' vyaw 0) (PiRat.mk' r 0) (PiRat.mk' l 0) =
      if r = 0 then .error .divZero
      else .ok ⟨realMagnitude q (realTicks wl), realDirection wl, realMagnitude q (realTicks wr), realDirection wr⟩ := by
  intro wr wl
  have hk := kinInv_real vx vyaw r l
  split
  · rename_i hr
    rw [if_pos hr] at hk
    rw [encodeCommand, hk]
  · rename_i hr
    rw [if_neg hr] at hk
    rw [encodeCommand_ok_iff]
    exact ⟨_, _, hk, encWheel_real q wl, encWheel_real q wr⟩

/-- ENCODE of the registers over the reals. -/
theorem encodeWith_real (s : State) :
    encodeWith arithReal s =
      encodeCommand arithReal s.par.magQuant (PiRat.mk' (PiRat.ofBits s.cmdVx).coef 0)
        (PiRat.mk' (PiRat.ofBits s.cmdVyaw).coef 0) (PiRat.mk' (PiRat.ofBits s.cfgRadius).coef 0)
        (PiRat.mk' (PiRat.ofBits s.cfgSep).coef 0) := by
  simp only [← PiRat.ofBits_eq]
  rfl

/-! ### The ticks, in RUN mode -/

section
variable {s : State} (hm : s.mode = .run)
include hm

/-- In RUN a BATT_TICK is its rule (R180, R185). -/
theorem exec_battTick_of_run : exec .battTick s = .next (battTickRule s) :=
  congrArg Host.Outcome.next (s.perform_of_run _ hm)

/-- In RUN an ODOM_TICK is its rule (R180, R184). -/
theorem exec_odomTick_of_run : exec .odomTick s = .next (odomTickRule s) :=
  congrArg Host.Outcome.next (s.perform_of_run _ hm)

/-- In RUN a CMD_TICK is its rule (R180, R186). -/
theorem exec_cmdTick_of_run : exec .cmdTick s = .next (cmdTickRule s) :=
  congrArg Host.Outcome.next (s.perform_of_run _ hm)

end

/-- Settles O46: the two cases of a BATT_TICK's rule, with the exact quotient. -/
theorem realBattTickOutcome : Obligations.RealBattTickOutcome := by
  intro s hm hn
  have hvolt : voltage s = .real ⟨((s.latestFrame.extractLsb' 0 16).toNat : ℚ) / 100, 0⟩ := by
    simp only [voltage, hn, arithReal_toNum, decVolt_real]
    rfl
  rw [exec_battTick_of_run hm]
  rcases battTickRule_cases s with ⟨hv, e⟩ | ⟨hv, e⟩
  · exact ⟨fun _ => congrArg _ e, fun h => absurd (hv.symm.trans h) (by decide)⟩
  · exact ⟨fun h => absurd (hv.symm.trans h) (by decide), fun _ => by rw [e, hvolt]⟩

/-- Settles O45: the three cases of an ODOM_TICK's rule, of which a zero separation alone is the second. -/
theorem realOdomTickOutcome : Obligations.RealOdomTickOutcome := by
  intro s hm hn r l wl wr
  have hmeas : odomMeasurement s = measureWith arithReal s := by simp only [odomMeasurement, hn]
  rw [measureWith_real] at hmeas
  rw [exec_odomTick_of_run hm]
  congr 1
  rcases odomTickRule_cases s with ⟨hv, e⟩ | ⟨hv, cause, hc, e⟩ | ⟨hv, m, hc, e⟩
  · rw [e, if_pos hv]
  · rw [hmeas] at hc
    split at hc
    · rename_i hl
      injection hc with hc
      rw [e, if_neg (by simp [hv]), if_pos hl, ← hc]
    · cases hc
  · rw [hmeas] at hc
    split at hc
    · cases hc
    · rename_i hl
      injection hc with hc
      rw [e, if_neg (by simp [hv]), if_neg hl, ← hc]
      rfl

/-- Settles O47: the two cases of a CMD_TICK's rule, of which a zero radius alone is the second. -/
theorem realCmdTickOutcome : Obligations.RealCmdTickOutcome := by
  intro s hm hn vx vyaw r l wr wl sent c
  have henc : encodeRegisters s = if r = 0 then .error .divZero else .ok c := by
    simp only [encodeRegisters, hn]
    rw [encodeWith_real]
    exact encodeCommand_real s.par.magQuant vx vyaw r l
  rw [exec_cmdTick_of_run hm]
  congr 1
  rcases cmdTickRule_cases s with ⟨c', hc, e⟩ | ⟨cause, hc, e⟩
  · rw [henc] at hc
    split at hc
    · cases hc
    · rename_i hr
      injection hc with hc
      rw [e, if_neg hr, ← hc]
      rfl
  · rw [henc] at hc
    split at hc
    · rename_i hr
      injection hc with hc
      rw [e, if_pos hr, ← hc]
      rfl
    · cases hc

end Sys2Proof.Machine

/-! PROOFS. Which registers each instruction may write (10_state.md R22): one footprint per instruction, from which follow
the single writer of each register group and that a valid bit stays set (R32). -/

namespace Sys2Proof.Machine

/-! ### The arms of `exec` -/

@[simp] theorem exec_rxByte (b : Byte) (s : State) : exec (.rxByte b) s = .next (s.receive b) := rfl
@[simp] theorem exec_rxIdle (s : State) : exec .rxIdle s = .next (s.perform syncIdle) := rfl
@[simp] theorem exec_setCmd (vx vyaw : B64) (s : State) :
    exec (.setCmd vx vyaw) s = .next (s.perform (setCmdRule vx vyaw)) := rfl
@[simp] theorem exec_odomTick (s : State) : exec .odomTick s = .next (s.perform odomTickRule) := rfl
@[simp] theorem exec_battTick (s : State) : exec .battTick s = .next (s.perform battTickRule) := rfl
@[simp] theorem exec_cmdTick (s : State) : exec .cmdTick s = .next (s.perform cmdTickRule) := rfl
@[simp] theorem exec_reset (chanOk : Bool) (s : State) :
    exec (.reset chanOk) s =
      .next ((s.resetRegisters s.envPar chanOk).observe (if chanOk then .ok none else .dead)) := rfl
@[simp] theorem exec_reserved (s : State) : exec .reserved s = .next (s.perform reservedRule) := rfl
@[simp] theorem exec_rxFrame (vL vR bat : BitVec 16) (s : State) :
    exec (.rxFrame vL vR bat) s = .next (receiveAll (rxFrameBytes vL vR bat).toList s) := rfl
@[simp] theorem exec_txFrame (lmag ldir rmag rdir : Byte) (s : State) :
    exec (.txFrame lmag ldir rmag rdir) s = .next s.noEvent := rfl

/-! ### The receiver -/

/-- From `s` to `t` the receiver alone has written: the window, its fill count and the latest frame, whose valid bit it never
clears (R24, R25, R32). -/
def ReceiverWrites (s t : State) : Prop :=
  ∃ win winN frame valid obs, (s.latestValid = true → valid = true) ∧
    t = { s with win := win, winN := winN, latestFrame := frame, latestValid := valid, obs := obs }

theorem ReceiverWrites.trans {s t u : State} (hst : ReceiverWrites s t) (htu : ReceiverWrites t u) :
    ReceiverWrites s u := by
  obtain ⟨_, _, _, _, _, hv, rfl⟩ := hst
  obtain ⟨_, _, _, _, _, hv', rfl⟩ := htu
  exact ⟨_, _, _, _, _, hv' ∘ hv, rfl⟩

theorem ReceiverWrites.observations (s : State) (obs : List Observation) : ReceiverWrites s { s with obs := obs } :=
  ⟨_, _, _, _, _, id, rfl⟩

/-- One RX_BYTE writes the receiver's registers only (R181). -/
theorem State.receive_writes (s : State) (b : Byte) : ReceiverWrites s (s.receive b) := by
  rcases s.receive_cases b with ⟨-, e⟩ | ⟨-, _, e⟩ | ⟨-, -, -, e⟩ | ⟨-, -, -, e⟩
  · exact ⟨_, _, _, _, _, id, e⟩
  · exact ⟨_, _, _, _, _, id, e⟩
  · exact ⟨_, _, _, _, _, fun _ => rfl, e⟩
  · exact ⟨_, _, _, _, _, id, e⟩

/-- Any bytes received write the receiver's registers only. -/
theorem receiveAll_writes (bs : List Byte) (s : State) : ReceiverWrites s (receiveAll bs s) :=
  receiveAll_induction (ReceiverWrites s) (fun _ o h => h.trans (.observations _ o))
    (fun t b h => h.trans (t.receive_writes b)) bs s (.observations s s.obs)

theorem State.receive_mode (s : State) (b : Byte) : (s.receive b).mode = s.mode := by
  obtain ⟨_, _, _, _, _, -, e⟩ := s.receive_writes b
  rw [e]

/-! ### The footprint of every instruction -/

/-- What an instruction may write (R22's column "written by"), a valid bit never being cleared but by RESET (R32). -/
def Footprint (i : Instr) (s t : State) : Prop :=
  match i with
  | .rxByte _ => ReceiverWrites s t
  | .rxIdle => ∃ winN obs, t = { s with winN := winN, obs := obs }
  | .setCmd _ _ => ∃ vx vyaw obs, t = { s with cmdVx := vx, cmdVyaw := vyaw, obs := obs }
  | .odomTick => ∃ wl wr vx vyaw valid obs, (s.measValid = true → valid = true) ∧
      t = { s with wheelWL := wl, wheelWR := wr, measVx := vx, measVyaw := vyaw, measValid := valid, obs := obs }
  | .battTick => ∃ volt valid obs, (s.voltValid = true → valid = true) ∧
      t = { s with volt := volt, voltValid := valid, obs := obs }
  | .cmdTick => ∃ wcmd tx obs, t = { s with wcmd := wcmd, tx := tx, obs := obs }
  | .reset chanOk => ∃ obs, t = { s.resetRegisters s.envPar chanOk with obs := obs }
  | .reserved => ∃ obs, t = { s with obs := obs }
  | .rxFrame _ _ _ => ReceiverWrites s t
  | .txFrame _ _ _ _ => ∃ obs, t = { s with obs := obs }

/-- A property of the DEAD outcome and, in RUN, of the rule is one of the dispatched event (R180, R206). -/
theorem State.perform_induction {P : State → Prop} (s : State) (rule : State → State)
    (hdead : P { s with obs := [⟨.dead, false⟩] }) (hrule : s.mode = .run → P (rule s)) : P (s.perform rule) := by
  rcases s.perform_cases rule with ⟨-, e⟩ | ⟨hm, e⟩ <;> rw [e]
  · exact hdead
  · exact hrule hm

/-- Every instruction writes within its footprint. -/
theorem exec_footprint {i : Instr} {s t : State} (h : exec i s = .next t) : Footprint i s t := by
  cases i with
  | rxByte b =>
    obtain rfl : s.receive b = t := by simpa using h
    exact s.receive_writes b
  | rxIdle =>
    obtain rfl : s.perform syncIdle = t := by simpa using h
    exact s.perform_induction _ ⟨_, _, rfl⟩ fun _ => ⟨_, _, syncIdle_eq s⟩
  | setCmd vx vyaw =>
    obtain rfl : s.perform (setCmdRule vx vyaw) = t := by simpa using h
    exact s.perform_induction _ ⟨_, _, _, rfl⟩ fun _ => ⟨_, _, _, rfl⟩
  | odomTick =>
    obtain rfl : s.perform odomTickRule = t := by simpa using h
    refine s.perform_induction _ ⟨_, _, _, _, _, _, id, rfl⟩ fun _ => ?_
    rcases odomTickRule_cases s with ⟨-, e⟩ | ⟨-, _, -, e⟩ | ⟨-, _, -, e⟩
    · exact ⟨_, _, _, _, _, _, id, e⟩
    · exact ⟨_, _, _, _, _, _, id, e⟩
    · exact ⟨_, _, _, _, _, _, fun _ => rfl, e⟩
  | battTick =>
    obtain rfl : s.perform battTickRule = t := by simpa using h
    refine s.perform_induction _ ⟨_, _, _, id, rfl⟩ fun _ => ?_
    rcases battTickRule_cases s with ⟨-, e⟩ | ⟨-, e⟩
    · exact ⟨_, _, _, id, e⟩
    · exact ⟨_, _, _, fun _ => rfl, e⟩
  | cmdTick =>
    obtain rfl : s.perform cmdTickRule = t := by simpa using h
    refine s.perform_induction _ ⟨_, _, _, rfl⟩ fun _ => ?_
    rcases cmdTickRule_cases s with ⟨_, -, e⟩ | ⟨_, -, e⟩
    · exact ⟨_, _, _, e⟩
    · exact ⟨_, _, _, e⟩
  | reset chanOk =>
    obtain rfl : (s.resetRegisters s.envPar chanOk).observe (if chanOk then .ok none else .dead) = t := by
      simpa using h
    exact ⟨_, rfl⟩
  | reserved =>
    obtain rfl : s.perform reservedRule = t := by simpa using h
    exact s.perform_induction _ ⟨_, rfl⟩ fun _ => ⟨_, rfl⟩
  | rxFrame vL vR bat =>
    obtain rfl : receiveAll (rxFrameBytes vL vR bat).toList s = t := by simpa using h
    exact receiveAll_writes _ s
  | txFrame lmag ldir rmag rdir =>
    obtain rfl : s.noEvent = t := by simpa using h
    exact ⟨_, rfl⟩

/-! ### The statements -/

/-- Settles O54: each instruction leaves unchanged what is outside its footprint. -/
theorem eachRegisterHasOneWriter : Obligations.EachRegisterHasOneWriter := by
  intro i s t h
  have hfoot := exec_footprint h
  cases i with
  | rxByte b => obtain ⟨_, _, _, _, _, -, rfl⟩ := hfoot; simp
  | rxIdle => obtain ⟨_, _, rfl⟩ := hfoot; simp
  | setCmd vx vyaw => obtain ⟨_, _, _, rfl⟩ := hfoot; simp
  | odomTick => obtain ⟨_, _, _, _, _, _, -, rfl⟩ := hfoot; simp
  | battTick => obtain ⟨_, _, _, -, rfl⟩ := hfoot; simp
  | cmdTick => obtain ⟨_, _, _, rfl⟩ := hfoot; simp
  | reset chanOk => obtain ⟨_, rfl⟩ := hfoot; simp
  | reserved => obtain ⟨_, rfl⟩ := hfoot; simp
  | rxFrame vL vR bat => obtain ⟨_, _, _, _, _, -, rfl⟩ := hfoot; simp
  | txFrame lmag ldir rmag rdir => obtain ⟨_, rfl⟩ := hfoot; simp

/-- Settles O55: the valid bit of each instruction that has one in its footprint is only ever set. -/
theorem validBitsClearedOnlyByReset : Obligations.ValidBitsClearedOnlyByReset := by
  intro i s t hne h
  have hfoot := exec_footprint h
  cases i with
  | rxByte b => obtain ⟨_, _, _, _, _, hv, rfl⟩ := hfoot; exact ⟨hv, id, id⟩
  | rxIdle => obtain ⟨_, _, rfl⟩ := hfoot; exact ⟨id, id, id⟩
  | setCmd vx vyaw => obtain ⟨_, _, _, rfl⟩ := hfoot; exact ⟨id, id, id⟩
  | odomTick => obtain ⟨_, _, _, _, _, _, hv, rfl⟩ := hfoot; exact ⟨id, hv, id⟩
  | battTick => obtain ⟨_, _, _, hv, rfl⟩ := hfoot; exact ⟨id, id, hv⟩
  | cmdTick => obtain ⟨_, _, _, rfl⟩ := hfoot; exact ⟨id, id, id⟩
  | reset chanOk => exact absurd rfl (hne chanOk)
  | reserved => obtain ⟨_, rfl⟩ := hfoot; exact ⟨id, id, id⟩
  | rxFrame vL vR bat => obtain ⟨_, _, _, _, _, hv, rfl⟩ := hfoot; exact ⟨hv, id, id⟩
  | txFrame lmag ldir rmag rdir => obtain ⟨_, rfl⟩ := hfoot; exact ⟨id, id, id⟩

end Sys2Proof.Machine

/-! PROOFS. The invariant of the reachable states: what each operation does to it, then that the reset state has it and every
step keeps it. -/

namespace Sys2Proof.Machine

/-! ### What is published is finite (60_exceptions.md R203) -/

/-- A finite `fl` is at most twice as far from zero as what it rounds: zero is a number too (R12). -/
theorem B64.abs_toRat_fl_le {z : Bool} {e : ℚ} (h : B64.isFinite (B64.fl z e) = true) :
    |B64.toRat (B64.fl z e)| ≤ 2 * |e| := by
  have h0 : B64.toRat 0 = 0 := by decide +kernel
  have hn := B64.fl_nearest h 0
  rw [h0, zero_sub, abs_neg] at hn
  calc |B64.toRat (B64.fl z e)| = |(B64.toRat (B64.fl z e) - e) + e| := by rw [sub_add_cancel]
    _ ≤ |B64.toRat (B64.fl z e) - e| + |e| := abs_add_le _ _
    _ ≤ 2 * |e| := by linarith

/-- Every power of two that a binary64 number can be is below the overflow threshold (R12). -/
theorem B64.two_pow_lt_threshold {n : Nat} (hn : n ≤ 1023) : (2 : ℚ) ^ n < 2 ^ 1024 - 2 ^ 970 := by
  have hle : (2 : ℚ) ^ n ≤ 2 ^ 1023 := pow_le_pow_right₀ (by norm_num) hn
  have hlt : (2 : ℚ) ^ 970 < 2 ^ 1023 := pow_lt_pow_right₀ (by norm_num) (by norm_num)
  have hsucc : (2 : ℚ) ^ 1024 = 2 * 2 ^ 1023 := pow_succ' 2 1023
  rw [lt_sub_iff_add_lt, hsucc, two_mul]
  exact add_lt_add_of_le_of_lt hle hlt

/-- The voltage of a raw 16-bit field is finite (41_telemetry_decode.md R124). -/
theorem isFinite_decVolt (b : Nat) (hb : b < 2 ^ 16) : B64.isFinite (decVolt arithB64 b) = true := by
  have hdiv : B64.isFinite (B64.ofInt 100) = true ∧ B64.isZero (B64.ofInt 100) = false ∧
      B64.toRat (B64.ofInt 100) = 100 := by decide +kernel
  obtain ⟨hf, hz, hv⟩ := hdiv
  have hb' : |((b : Int) : ℚ)| < 2 ^ 16 := by
    rw [Int.cast_natCast, Nat.abs_cast]
    exact_mod_cast hb
  have hfin : B64.isFinite (B64.ofInt b) = true := (B64.isFinite_fl_iff _ _).2 (hb'.trans (B64.two_pow_lt_threshold (by norm_num)))
  have hle : |B64.toRat (B64.ofInt b)| ≤ 2 * |((b : Int) : ℚ)| := B64.abs_toRat_fl_le hfin
  show B64.isFinite (B64.div (B64.ofInt b) (B64.ofInt 100)) = true
  rw [B64.div_of_isFinite hfin hf hz, B64.isFinite_fl_iff, hv, abs_div]
  calc |B64.toRat (B64.ofInt b)| / |100| ≤ |B64.toRat (B64.ofInt b)| := div_le_self (abs_nonneg _) (by norm_num)
    _ ≤ 2 * |((b : Int) : ℚ)| := hle
    _ < 2 ^ 17 := by linarith
    _ < 2 ^ 1024 - 2 ^ 970 := B64.two_pow_lt_threshold (by norm_num)

/-- What a BATT_TICK publishes is finite. -/
theorem numOk_voltage (s : State) : numOk s.par.numeric (voltage s) = true := by
  unfold voltage
  cases s.par.numeric with
  | binary64 => exact isFinite_decVolt _ (BitVec.isLt _)
  | real => rfl

/-- What KIN_FWD answers for a frame passes its finiteness tests, the wheel speeds among them (42_kinematics.md R141). -/
theorem measureWith_isFinite {α : Type} {A : Arith α} {s : State} {m : Measurement} {n : Numeric}
    (hA : ∀ x, A.isFinite x = true → numOk n (A.toNum x) = true) (h : measureWith A s = .ok m) :
    numOk n m.wl = true ∧ numOk n m.wr = true ∧ numOk n m.vx = true ∧ numOk n m.vyaw = true := by
  obtain ⟨vx, vyaw, hk, rfl⟩ := (measureWith_ok_iff A s m).1 h
  obtain ⟨⟨hwl, hwr, -, -⟩, -, ⟨-, -, hvx, hvyaw⟩, -, -⟩ := (kinFwd_ok_iff A _ _ _ _ _ _).1 hk
  exact ⟨hA _ hwl, hA _ hwr, hA _ hvx, hA _ hvyaw⟩

/-- What an ODOM_TICK publishes is finite. -/
theorem numOk_odomMeasurement {s : State} {m : Measurement} (h : odomMeasurement s = .ok m) :
    numOk s.par.numeric m.wl = true ∧ numOk s.par.numeric m.wr = true ∧ numOk s.par.numeric m.vx = true ∧
      numOk s.par.numeric m.vyaw = true := by
  unfold odomMeasurement at h
  cases hn : s.par.numeric with
  | binary64 => exact measureWith_isFinite (A := arithB64) (fun _ hx => hx) (by simpa only [hn] using h)
  | real => exact measureWith_isFinite (A := arithReal) (fun _ _ => rfl) (by simpa only [hn] using h)

theorem numOk_zeroNum (n : Numeric) : numOk n (zeroNum n) = true := by
  cases n <;> decide

/-! ### What is sent is whole legal frames (20_memory.md R52) -/

/-- Whole frames stay whole when whole frames follow them. -/
theorem framesOk_append (xs ys : List Byte) (hx : framesOk xs = true) (hy : framesOk ys = true) :
    framesOk (xs ++ ys) = true := by
  induction xs using framesOk.induct with
  | case1 => exact hy
  | case2 h0 h1 _ ldir _ rdir rest ih =>
    simp only [framesOk, List.cons_append, Bool.and_eq_true] at hx ⊢
    exact ⟨hx.1, ih hx.2⟩
  | case3 xs hnil hcons => simp [framesOk] at hx

/-- The frame of any wheel command is legal (30_encoding.md R76). -/
theorem framesOk_encFrame (c : WheelCommand) : framesOk (encFrame c).toList = true := by
  have hdir : ∀ d : BitVec 1, dirByteOk (d.setWidth 8) = true := by decide
  show (_ && _ && dirByteOk (c.ldir.setWidth 8) && dirByteOk (c.rdir.setWidth 8) && _) = true
  rw [hdir, hdir]
  rfl

theorem framesOk_append_encFrame {tx : List Byte} (h : framesOk tx = true) (c : WheelCommand) :
    framesOk (tx ++ (encFrame c).toList) = true :=
  framesOk_append _ _ h (framesOk_encFrame c)

/-! ### A published frame has the header pair (10_state.md R25) -/

/-- The upper sixteen bits of a packed window are its first two bytes (30_encoding.md R72). -/
theorem packWindow_header (w : Vector Byte 8) : (packWindow w).extractLsb' 48 16 = w[0] ++ w[1] := by
  calc (packWindow w).extractLsb' 48 16
      = (w[0] ++ w[1] ++ w[2] ++ w[3] ++ w[4] ++ w[5] ++ w[6]).extractLsb' 40 16 := extract_append_high _ w[7] 40 16
    _ = (w[0] ++ w[1] ++ w[2] ++ w[3] ++ w[4] ++ w[5]).extractLsb' 32 16 := extract_append_high _ w[6] 32 16
    _ = (w[0] ++ w[1] ++ w[2] ++ w[3] ++ w[4]).extractLsb' 24 16 := extract_append_high _ w[5] 24 16
    _ = (w[0] ++ w[1] ++ w[2] ++ w[3]).extractLsb' 16 16 := extract_append_high _ w[4] 16 16
    _ = (w[0] ++ w[1] ++ w[2]).extractLsb' 8 16 := extract_append_high _ w[3] 8 16
    _ = (w[0] ++ w[1]).extractLsb' 0 16 := extract_append_high _ w[2] 0 16
    _ = w[0] ++ w[1] := extract_all _

/-- An accepted window, its last byte just stored, packs to a frame with the header pair (40_synchronizer.md R102). -/
theorem packWindow_header_of_headerOk {w : Vector Byte 8} (h : headerOk w = true) (b : Byte) :
    (packWindow (w.set 7 b)).extractLsb' 48 16 = 0xFFFE := by
  obtain ⟨h0, h1⟩ := (headerOk_iff w).1 h
  have h0' : (w.set 7 b)[0] = 0xFF := by simpa using h0
  have h1' : (w.set 7 b)[1] = 0xFE := by simpa using h1
  rw [packWindow_header, h0', h1']
  rfl

/-! ### The operations of the state -/

namespace State.Inv

/-- The clause on FATAL asks nothing in RUN. -/
theorem fatal_of_run {t : State} (hm : t.mode = .run) : t.mode = .fatal → t = t.resetRegisters t.par false :=
  fun hf => absurd (hm.symm.trans hf) (by decide)

variable {s : State}

/-- The model's own fields beside `tx` are outside the invariant, but for a strobe. -/
theorem of_registers (h : s.Inv) (envPar : Params) (input : List Input) {obs : List Observation}
    (hobs : ∀ o ∈ obs, o.framePub = true → s.latestValid = true) :
    State.Inv { s with envPar := envPar, input := input, obs := obs } :=
  { h with
    strobe := hobs
    fatal := fun hf => congrArg (fun t : State => { t with envPar := envPar, input := input, obs := obs }) (h.fatal hf) }

/-- An event that strobes nothing and writes no register. -/
theorem observe (h : s.Inv) (c : OutcomeCode) : (s.observe c).Inv :=
  h.of_registers s.envPar s.input (by simp)

theorem noEvent (h : s.Inv) : s.noEvent.Inv :=
  h.of_registers s.envPar s.input (by simp)

/-- The rest of the input, the present observations standing. -/
theorem withInput (h : s.Inv) (input : List Input) : State.Inv { s with input := input } :=
  h.of_registers s.envPar input h.strobe

theorem setEnvPar (h : s.Inv) (p : Params) : (s.setEnvPar p).Inv :=
  h.of_registers p s.input (by simp)

/-- The dispatch on MODE: a rule need keep the invariant in RUN only. -/
theorem perform (h : s.Inv) {rule : State → State} (hrule : s.mode = .run → (rule s).Inv) : (s.perform rule).Inv :=
  s.perform_induction rule (h.observe .dead) hrule

/-! ### The rules -/

/-- One byte received: an accept publishes a frame with the header pair. -/
theorem receive (h : s.Inv) (b : Byte) : (s.receive b).Inv := by
  rcases s.receive_cases b with ⟨-, e⟩ | ⟨hm, _, e⟩ | ⟨hm, -, hh, e⟩ | ⟨hm, -, -, e⟩ <;> rw [e]
  · exact h.observe .dead
  · exact { h with strobe := by simp, fatal := fatal_of_run hm }
  · exact { h with
      frameHeader := fun _ => packWindow_header_of_headerOk hh b
      frameReset := by simp
      strobe := by simp
      fatal := fatal_of_run hm }
  · exact { h with strobe := by simp, fatal := fatal_of_run hm }

/-- Bytes received: the valid bit that an earlier strobe sets, the later bytes keep. -/
theorem receiveAll (h : s.Inv) (bs : List Byte) : (receiveAll bs s).Inv := by
  induction bs generalizing s with
  | nil => exact h.noEvent
  | cons b bs ih =>
    have h1 := h.receive b
    have h2 := ih h1
    have hvalid : (s.receive b).latestValid = true → (Machine.receiveAll bs (s.receive b)).latestValid = true := by
      obtain ⟨_, _, _, _, _, hv, e⟩ := receiveAll_writes bs (s.receive b)
      rw [e]
      exact hv
    rw [receiveAll_cons]
    refine h2.of_registers _ _ fun o ho hp => ?_
    rcases List.mem_append.1 ho with ho | ho
    · exact hvalid (h1.strobe o ho hp)
    · exact h2.strobe o ho hp

theorem syncIdle (h : s.Inv) (hm : s.mode = .run) : (syncIdle s).Inv := by
  rw [syncIdle_eq]
  exact { h with strobe := by simp, fatal := fatal_of_run hm }

theorem setCmdRule (h : s.Inv) (hm : s.mode = .run) (vx vyaw : B64) : (setCmdRule vx vyaw s).Inv :=
  { h with strobe := by simp [Machine.setCmdRule], fatal := fatal_of_run hm }

theorem odomTickRule (h : s.Inv) (hm : s.mode = .run) : (odomTickRule s).Inv := by
  rcases odomTickRule_cases s with ⟨-, e⟩ | ⟨-, cause, -, e⟩ | ⟨-, m, hmeas, e⟩ <;> rw [e]
  · exact h.observe .skipNoFrame
  · exact h.observe (.skipArith cause)
  · obtain ⟨hwl, hwr, hvx, hvyaw⟩ := numOk_odomMeasurement hmeas
    obtain ⟨-, -, -, -, hvolt⟩ := h.finite
    exact { h with
      measReset := by simp
      finite := ⟨hwl, hwr, hvx, hvyaw, hvolt⟩
      strobe := by simp
      fatal := fatal_of_run hm }

theorem battTickRule (h : s.Inv) (hm : s.mode = .run) : (battTickRule s).Inv := by
  rcases battTickRule_cases s with ⟨-, e⟩ | ⟨-, e⟩ <;> rw [e]
  · exact h.observe .skipNoFrame
  · obtain ⟨hwl, hwr, hvx, hvyaw, -⟩ := h.finite
    exact { h with
      voltReset := by simp
      finite := ⟨hwl, hwr, hvx, hvyaw, numOk_voltage s⟩
      strobe := by simp
      fatal := fatal_of_run hm }

theorem cmdTickRule (h : s.Inv) (hm : s.mode = .run) : (cmdTickRule s).Inv := by
  rcases cmdTickRule_cases s with ⟨c, -, e⟩ | ⟨cause, -, e⟩ <;> rw [e]
  · exact { h with
      frames := framesOk_append_encFrame h.frames c
      strobe := by simp
      fatal := fatal_of_run hm }
  · have hframes : framesOk
        (if s.par.cmdFaultPolicy = .resend then s.tx ++ (encFrame s.wcmd).toList else s.tx) = true := by
      split
      · exact framesOk_append_encFrame h.frames s.wcmd
      · exact h.frames
    exact { h with frames := hframes, strobe := by simp, fatal := fatal_of_run hm }

end State.Inv

/-- RESET establishes the invariant, whatever the registers held before; what was sent stays sent. -/
theorem State.resetRegisters_inv (s : State) (p : Params) (chanOk : Bool) (c : OutcomeCode)
    (htx : framesOk s.tx = true) : ((s.resetRegisters p chanOk).observe c).Inv where
  frameHeader := by simp
  frameReset := by simp
  measReset := by simp
  voltReset := by simp
  finite := by simp [numOk_zeroNum]
  config := by simp
  frames := htx
  strobe := by simp
  fatal := by
    intro hf
    cases chanOk with
    | true => cases hf
    | false => rfl

/-- Every instruction keeps the invariant. -/
theorem exec_keeps_inv {i : Instr} {s t : State} (h : s.Inv) (he : exec i s = .next t) : t.Inv := by
  cases i with
  | rxByte b =>
    obtain rfl : s.receive b = t := by simpa using he
    exact h.receive b
  | rxIdle =>
    obtain rfl : s.perform syncIdle = t := by simpa using he
    exact h.perform h.syncIdle
  | setCmd vx vyaw =>
    obtain rfl : s.perform (setCmdRule vx vyaw) = t := by simpa using he
    exact h.perform fun hm => h.setCmdRule hm vx vyaw
  | odomTick =>
    obtain rfl : s.perform odomTickRule = t := by simpa using he
    exact h.perform h.odomTickRule
  | battTick =>
    obtain rfl : s.perform battTickRule = t := by simpa using he
    exact h.perform h.battTickRule
  | cmdTick =>
    obtain rfl : s.perform cmdTickRule = t := by simpa using he
    exact h.perform h.cmdTickRule
  | reset chanOk =>
    obtain rfl : (s.resetRegisters s.envPar chanOk).observe (if chanOk then .ok none else .dead) = t := by
      simpa using he
    exact s.resetRegisters_inv _ _ _ h.frames
  | reserved =>
    obtain rfl : s.perform reservedRule = t := by simpa using he
    exact h.perform fun _ => h.observe .refused
  | rxFrame vL vR bat =>
    obtain rfl : receiveAll (rxFrameBytes vL vR bat).toList s = t := by simpa using he
    exact h.receiveAll _
  | txFrame lmag ldir rmag rdir =>
    obtain rfl : s.noEvent = t := by simpa using he
    exact h.noEvent

/-- A word that is no row of the opcode table keeps the invariant (log entry 14). -/
theorem State.Inv.takeNonRow {s : State} (h : s.Inv) (e : DecodeError) : (s.takeNonRow e).Inv := by
  rcases s.takeNonRow_cases e with ⟨w, -, he⟩ | ⟨w, -, he⟩ <;> rw [he]
  · exact h.receiveAll _
  · exact h.noEvent

/-! ### The statements -/

/-- Settles O59: the reset state is one that RESET leaves. -/
theorem resetStateHasInvariant : Obligations.ResetStateHasInvariant :=
  State.reset.resetRegisters_inv Config.params true (.ok none) rfl

/-- Settles O60: the four cases of a step, each of which keeps the invariant. -/
theorem everyStepKeepsInvariant : Obligations.EveryStepKeepsInvariant := by
  intro s t h hstep
  rcases step_cases s with ⟨-, e⟩ | ⟨p, rest, -, e⟩ | ⟨w, rest, i, -, -, e⟩ | ⟨w, rest, err, -, -, e⟩ <;>
    rw [e] at hstep
  · obtain rfl : s.noEvent = t := by simpa using hstep
    exact h.noEvent
  · obtain rfl : State.setEnvPar { s with input := rest } p = t := by simpa using hstep
    exact (h.withInput rest).setEnvPar p
  · exact exec_keeps_inv (h.withInput rest) hstep
  · obtain rfl : State.takeNonRow { s with input := rest } err = t := by simpa using hstep
    exact (h.withInput rest).takeNonRow err

end Sys2Proof.Machine

/-! PROOFS. The window of the synchronizer as a list of held bytes (10_state.md R24): what one byte does to it, and that it is
always the end of the stream (40_synchronizer.md R106). -/

namespace Sys2Proof.Machine

/-- The bytes the window holds, `WIN[0..WIN_N-1]`, oldest first (R24). -/
def State.held (s : State) : List Byte := s.win.toList.take s.winN

/-- The window holds `WIN_N` bytes. -/
theorem State.length_held (s : State) : s.held.length = s.winN := by
  simp [State.held, s.winN.isLt.le]

/-- Storing a byte at index `n` appends it to the first `n` bytes. -/
theorem take_set_window (w : Vector Byte 8) (n : Nat) (h : n < 8) (b : Byte) :
    (w.set n b).toList.take (n + 1) = w.toList.take n ++ [b] := by
  rw [Vector.toList_set, List.take_add_one, List.take_set_of_le le_rfl]
  simp [h]

/-- A slide drops the oldest byte (R103). -/
theorem take_slideWindow (w : Vector Byte 8) : (slideWindow w).toList.take 7 = w.toList.drop 1 := by
  have hw : w = #v[w[0], w[1], w[2], w[3], w[4], w[5], w[6], w[7]] := by
    apply Vector.ext
    intro i hi
    interval_cases i <;> rfl
  rw [hw]
  rfl

/-- One byte received in RUN: it is held after the bytes held before, of which an accept keeps none and a slip all but the
oldest (R101 to R103). -/
theorem State.receive_held {s : State} (hm : s.mode = .run) (b : Byte) : (s.receive b).held <:+ s.held ++ [b] := by
  rcases s.receive_cases b with ⟨hf, -⟩ | ⟨-, h, e⟩ | ⟨-, -, -, e⟩ | ⟨-, hn, -, e⟩
  · exact absurd (hm.symm.trans hf) (by decide)
  · have hfill : (s.receive b).held = s.held ++ [b] := by
      rw [e]
      exact take_set_window s.win s.winN s.winN.isLt b
    rw [hfill]
  · have haccept : (s.receive b).held = [] := by rw [e]; rfl
    rw [haccept]
    exact List.nil_suffix
  · have hslip : (s.receive b).held = (s.held ++ [b]).drop 1 := by
      rw [e]
      have hfull : (s.win.set 7 b).toList = s.held ++ [b] := by
        rw [State.held, hn, ← List.take_of_length_le (l := (s.win.set 7 b).toList) (i := 8) (by simp)]
        exact take_set_window s.win 7 (by decide) b
      rw [← hfull]
      exact take_slideWindow (s.win.set 7 b)
    rw [hslip]
    exact List.drop_suffix 1 _

/-- A stream of one more byte. -/
@[simp] theorem feed_cons_state (b : Byte) (bs : List Byte) (s : State) :
    (feed (b :: bs) s).2 = (feed bs (s.receive b)).2 := rfl

/-- What the window holds stays the end of the stream, `pre` being what was received before (R106). -/
theorem feed_held_suffix (bs : List Byte) {pre : List Byte} {s : State} (hm : s.mode = .run) (h : s.held <:+ pre) :
    (feed bs s).2.held <:+ pre ++ bs := by
  induction bs generalizing pre s with
  | nil => simpa [feed] using h
  | cons b bs ih =>
    have hstep : (s.receive b).held <:+ pre ++ [b] :=
      (State.receive_held hm b).trans (List.suffix_append_self_iff.2 h)
    simpa using ih ((s.receive_mode b).trans hm) hstep

/-- Settles O19: a suffix is what is left when its length is counted off the end. -/
theorem windowHoldsStreamSuffix : Obligations.WindowHoldsStreamSuffix := by
  intro bs s hm hn t
  have hempty : s.held <:+ [] := by simp [State.held, hn]
  have hsuffix : t.held <:+ bs := feed_held_suffix bs hm hempty
  have hdrop : t.held = bs.drop (bs.length - t.held.length) := List.suffix_iff_eq_drop.1 hsuffix
  rwa [t.length_held] at hdrop

end Sys2Proof.Machine

/-! PROOFS. Performing an event a second time (20_memory.md R56): what each rule does to the state it has itself left, and
that an output frame on its way to the motor hardware changes nothing (R52). -/

namespace Sys2Proof.Machine

/-! ### The mode across a dispatch -/

/-- Only RESET writes MODE (10_state.md R22). -/
theorem exec_mode {i : Instr} {s t : State} (hne : ∀ c, i ≠ .reset c) (h : exec i s = .next t) : t.mode = s.mode := by
  obtain ⟨-, -, -, hkept, -⟩ := eachRegisterHasOneWriter i s t h
  obtain ⟨-, hmode, -⟩ := hkept hne
  exact hmode

section
variable {s : State} {rule : State → State}

/-- In the state it leaves, a dispatch that keeps MODE takes the same branch: DEAD once more, or the rule of what the rule
left (R180, R206). -/
theorem State.perform_perform (hmode : (s.perform rule).mode = s.mode) :
    (s.perform rule = s.dead ∧ (s.perform rule).perform rule = s.dead) ∨
    (s.perform rule = rule s ∧ (s.perform rule).perform rule = rule (rule s)) := by
  rcases s.perform_cases rule with ⟨hm, e⟩ | ⟨hm, e⟩ <;> rw [e] at hmode ⊢
  · exact .inl ⟨rfl, s.dead.perform_of_fatal rule (hmode.trans hm)⟩
  · exact .inr ⟨rfl, (rule s).perform_of_run rule (hmode.trans hm)⟩

/-- The dispatch of an idempotent rule is idempotent. -/
theorem exec_idempotent_of_rule {i : Instr} {t : State} (hexec : ∀ s, exec i s = .next (s.perform rule))
    (hne : ∀ c, i ≠ .reset c) (hrule : rule (rule s) = rule s) (h : exec i s = .next t) : exec i t = .next t := by
  have hmode := exec_mode hne h
  obtain rfl : s.perform rule = t := by simpa [hexec] using h
  rw [hexec]
  congr 1
  rcases State.perform_perform hmode with ⟨e, e2⟩ | ⟨e, e2⟩
  · exact e2.trans e.symm
  · exact e2.trans (hrule.trans e.symm)

end

/-! ### The rules, a second time -/

/-- The flush of an emptied window, or none (R104). -/
theorem syncIdle_idempotent (s : State) : syncIdle (syncIdle s) = syncIdle s := by
  simp only [syncIdle_eq]
  cases s.par.rxIdleFlush <;> rfl

/-- An ODOM_TICK that has a measurement publishes it, whatever the measured registers held (R184). -/
theorem odomTickRule_of_ok {s : State} {m : Measurement} (hv : s.latestValid = true) (hm : odomMeasurement s = .ok m) :
    odomTickRule s = { s with wheelWL := m.wl, wheelWR := m.wr, measVx := m.vx, measVyaw := m.vyaw, measValid := true,
                              obs := [⟨.ok none, false⟩] } := by
  rw [odomTickRule, if_neg (by simp [hv]), hm]
  rfl

/-- The measurement is of the latest frame, which an ODOM_TICK does not write. -/
theorem odomTickRule_idempotent (s : State) : odomTickRule (odomTickRule s) = odomTickRule s := by
  have hobs : ∀ o, odomTickRule { s with obs := o } = odomTickRule s := fun _ => rfl
  rcases odomTickRule_cases s with ⟨-, e⟩ | ⟨-, _, -, e⟩ | ⟨hv, m, hm, e⟩
  · rw [e, hobs, e]
  · rw [e, hobs, e]
  · rw [e]
    exact odomTickRule_of_ok hv hm

/-- A BATT_TICK that has a frame publishes its voltage, whatever the register held (R185). -/
theorem battTickRule_of_valid {s : State} (hv : s.latestValid = true) :
    battTickRule s = { s with volt := voltage s, voltValid := true, obs := [⟨.ok none, false⟩] } :=
  if_neg (by simp [hv])

/-- The voltage is of the latest frame, which a BATT_TICK does not write. -/
theorem battTickRule_idempotent (s : State) : battTickRule (battTickRule s) = battTickRule s := by
  have hobs : ∀ o, battTickRule { s with obs := o } = battTickRule s := fun _ => rfl
  rcases battTickRule_cases s with ⟨-, e⟩ | ⟨hv, e⟩
  · rw [e, hobs, e]
  · rw [e]
    exact battTickRule_of_valid hv

/-- A CMD_TICK that has a wheel command publishes and sends it, whatever the one before was (R186). -/
theorem cmdTickRule_of_ok {s : State} {c : WheelCommand} (h : encodeRegisters s = .ok c) :
    cmdTickRule s = { s with wcmd := c, tx := s.tx ++ (encFrame c).toList, obs := [⟨.ok none, false⟩] } := by
  rw [cmdTickRule, h]
  rfl

/-- A CMD_TICK that has none sends the previous frame or nothing, as CMD_FAULT_POLICY says (R186). -/
theorem cmdTickRule_of_error {s : State} {cause : SubCause} (h : encodeRegisters s = .error cause) :
    cmdTickRule s =
      { s with tx := s.tx ++ if s.par.cmdFaultPolicy = .resend then (encFrame s.wcmd).toList else [],
               obs := [⟨.skipArith cause, false⟩] } := by
  rw [cmdTickRule, h]
  cases hp : s.par.cmdFaultPolicy <;> simp [resendFrame, hp, State.transmit, State.skip, State.observe]

/-- The wheel command is computed from registers that a CMD_TICK does not write, and a skip keeps the previous frame: what
is sent is sent again. -/
theorem cmdTickRule_repeats (s : State) :
    cmdTickRule (cmdTickRule s) =
      { cmdTickRule s with tx := (cmdTickRule s).tx ++ (cmdTickRule s).tx.drop s.tx.length } := by
  cases he : encodeRegisters s with
  | ok c =>
    rw [cmdTickRule_of_ok he]
    simp only [List.drop_left]
    exact cmdTickRule_of_ok he
  | error cause =>
    rw [cmdTickRule_of_error he]
    simp only [List.drop_left]
    exact cmdTickRule_of_error he

/-! ### The statements -/

/-- Settles O42: the arm of TXFRAME. -/
theorem txFrameHasNoEffectOnAcb : Obligations.TxFrameHasNoEffectOnAcb :=
  fun s lmag ldir rmag rdir => exec_txFrame lmag ldir rmag rdir s

/-- Settles O57: the rule of each event is idempotent, but for CMD_TICK's, which sends once more. -/
theorem eventsIdempotent : Obligations.EventsIdempotent := by
  constructor
  · intro i s t hevent hbyte hcmd h
    cases i with
    | rxByte b => exact absurd rfl (hbyte b)
    | rxIdle => exact exec_idempotent_of_rule exec_rxIdle nofun (syncIdle_idempotent s) h
    | setCmd vx vyaw => exact exec_idempotent_of_rule (exec_setCmd vx vyaw) nofun rfl h
    | odomTick => exact exec_idempotent_of_rule exec_odomTick nofun (odomTickRule_idempotent s) h
    | battTick => exact exec_idempotent_of_rule exec_battTick nofun (battTickRule_idempotent s) h
    | cmdTick => exact absurd rfl hcmd
    | reset chanOk =>
      obtain rfl : (s.resetRegisters s.envPar chanOk).observe (if chanOk then .ok none else .dead) = t := by
        simpa using h
      rfl
    | reserved => exact exec_idempotent_of_rule exec_reserved nofun rfl h
    | rxFrame vL vR bat => cases hevent
    | txFrame lmag ldir rmag rdir => cases hevent
  · intro s t h
    have hmode : t.mode = s.mode := exec_mode (by simp) h
    obtain rfl : s.perform cmdTickRule = t := by simpa using h
    rw [exec_cmdTick]
    congr 1
    rcases State.perform_perform hmode with ⟨e, e2⟩ | ⟨e, e2⟩ <;> rw [e2, e]
    · simp [State.dead, State.observe]
    · exact cmdTickRule_repeats s

end Sys2Proof.Machine

/-! PROOFS. The encodings (30_encoding.md): what the decoder answers for a word of each format, where the fields of an
appended word stand, and that what ACB sends is a word of the output frame's row. -/

namespace Sys2Proof.Machine

/-! ### What the decoder answers -/

section
variable {w : BitVec 131}

/-! An event word, per code (R71, R79). -/

theorem decode_ev_rxByte (h : w.extractLsb' 0 3 = 0b000) : decode (.ev w) = .ok (.rxByte (w.extractLsb' 3 8)) := by
  simp [decode, decodeEvent, h]

theorem decode_ev_rxIdle (h : w.extractLsb' 0 3 = 0b001) : decode (.ev w) = .ok .rxIdle := by
  simp [decode, decodeEvent, h]

theorem decode_ev_setCmd (h : w.extractLsb' 0 3 = 0b010) :
    decode (.ev w) = .ok (.setCmd (w.extractLsb' 3 64) (w.extractLsb' 67 64)) := by
  simp [decode, decodeEvent, h]

theorem decode_ev_odomTick (h : w.extractLsb' 0 3 = 0b011) : decode (.ev w) = .ok .odomTick := by
  simp [decode, decodeEvent, h]

theorem decode_ev_battTick (h : w.extractLsb' 0 3 = 0b100) : decode (.ev w) = .ok .battTick := by
  simp [decode, decodeEvent, h]

theorem decode_ev_cmdTick (h : w.extractLsb' 0 3 = 0b101) : decode (.ev w) = .ok .cmdTick := by
  simp [decode, decodeEvent, h]

theorem decode_ev_reset (h : w.extractLsb' 0 3 = 0b110) : decode (.ev w) = .ok (.reset (w.getLsbD 3)) := by
  simp [decode, decodeEvent, h]

theorem decode_ev_reserved (h : w.extractLsb' 0 3 = 0b111) : decode (.ev w) = .ok .reserved := by
  simp [decode, decodeEvent, h]

end

/-- A 64-bit word with the header pair is an input frame (R72, R73). -/
theorem decode_rxf_of_header {w : BitVec 64} (h : w.extractLsb' 48 16 = Config.hdr0 ++ Config.hdr1) :
    decode (.rxf w) = .ok (.rxFrame (w.extractLsb' 32 16) (w.extractLsb' 16 16) (w.extractLsb' 0 16)) :=
  if_pos h

/-- No other 64-bit word is (R73). -/
theorem exists_decode_rxf_iff (w : BitVec 64) :
    (∃ i, decode (.rxf w) = .ok i) ↔ w.extractLsb' 48 16 = Config.hdr0 ++ Config.hdr1 := by
  refine ⟨fun ⟨i, hi⟩ => ?_, fun h => ⟨_, decode_rxf_of_header h⟩⟩
  by_contra h
  have hreject : decode (.rxf w) = .error (.notAnInputFrame w) := if_neg h
  exact nomatch hreject.symm.trans hi

/-- A 48-bit word with the header pair and legal direction bytes is an output frame (R75, R76). -/
theorem decode_txf_of_header {w : BitVec 48} (h : w.extractLsb' 32 16 = Config.hdr0 ++ Config.hdr1)
    (hl : dirByteOk (w.extractLsb' 16 8) = true) (hr : dirByteOk (w.extractLsb' 0 8) = true) :
    decode (.txf w) =
      .ok (.txFrame (w.extractLsb' 24 8) (w.extractLsb' 16 8) (w.extractLsb' 8 8) (w.extractLsb' 0 8)) :=
  if_pos ⟨h, hl, hr⟩

/-- No other 48-bit word is (R76). -/
theorem exists_decode_txf_iff (w : BitVec 48) :
    (∃ i, decode (.txf w) = .ok i) ↔
      w.extractLsb' 32 16 = Config.hdr0 ++ Config.hdr1 ∧ dirByteOk (w.extractLsb' 16 8) = true ∧
        dirByteOk (w.extractLsb' 0 8) = true := by
  refine ⟨fun ⟨i, hi⟩ => ?_, fun ⟨h, hl, hr⟩ => ⟨_, decode_txf_of_header h hl hr⟩⟩
  by_contra h
  have hreject : decode (.txf w) = .error (.notAnOutputFrame w) := if_neg h
  exact nomatch hreject.symm.trans hi

/-! ### Fields of appended words -/

/-- Appended words are equal exactly if their parts are. -/
theorem append_inj_iff {n m : Nat} {a b : BitVec n} {c d : BitVec m} : a ++ c = b ++ d ↔ a = b ∧ c = d := by
  constructor
  · intro h
    constructor
    · simpa only [BitVec.extractLsb'_append_eq_left] using congrArg (BitVec.extractLsb' m n) h
    · simpa only [BitVec.extractLsb'_append_eq_right] using congrArg (BitVec.extractLsb' 0 m) h
  · rintro ⟨rfl, rfl⟩
    rfl

/-- The fields of a word of four parts of one width, as the 16-bit parts of an input frame (R72). -/
theorem four_fields {n : Nat} (a b c d : BitVec n) :
    (a ++ b ++ c ++ d).extractLsb' (n + n + n) n = a ∧ (a ++ b ++ c ++ d).extractLsb' (n + n) n = b ∧
    (a ++ b ++ c ++ d).extractLsb' n n = c ∧ (a ++ b ++ c ++ d).extractLsb' 0 n = d := by
  simp (disch := omega) [BitVec.extractLsb'_append_eq_of_le, BitVec.extractLsb'_append_eq_of_add_le]

/-- The fields of a word of six parts of one width, as the bytes of an output frame (R75), and its first two parts
together. -/
theorem six_fields {n : Nat} (a b c d e f : BitVec n) :
    (a ++ b ++ c ++ d ++ e ++ f).extractLsb' (n + n + n + n) (n + n) = a ++ b ∧
    (a ++ b ++ c ++ d ++ e ++ f).extractLsb' (n + n + n + n + n) n = a ∧
    (a ++ b ++ c ++ d ++ e ++ f).extractLsb' (n + n + n + n) n = b ∧
    (a ++ b ++ c ++ d ++ e ++ f).extractLsb' (n + n + n) n = c ∧
    (a ++ b ++ c ++ d ++ e ++ f).extractLsb' (n + n) n = d ∧
    (a ++ b ++ c ++ d ++ e ++ f).extractLsb' n n = e ∧ (a ++ b ++ c ++ d ++ e ++ f).extractLsb' 0 n = f := by
  simp (disch := omega) [BitVec.extractLsb'_append_eq_of_le, BitVec.extractLsb'_append_eq_of_add_le]

theorem append_byte_pair {n : Nat} (x : BitVec n) (a b : Byte) : x ++ a ++ b = x ++ (a ++ b) := BitVec.append_assoc

/-- A packed window is its byte pairs in order (R72, R74). -/
theorem packWindow_eq_pairs (w : Vector Byte 8) :
    packWindow w = (w[0] ++ w[1]) ++ (w[2] ++ w[3]) ++ (w[4] ++ w[5]) ++ (w[6] ++ w[7]) := by
  rw [packWindow]
  repeat rw [append_byte_pair]

/-- A 48-bit word is its header pair and its four field bytes (R75). -/
theorem eq_append_fields (t : BitVec 48) :
    t = t.extractLsb' 32 16 ++ t.extractLsb' 24 8 ++ t.extractLsb' 16 8 ++ t.extractLsb' 8 8 ++ t.extractLsb' 0 8 := by
  have join (lo n k : Nat) : t.extractLsb' (lo + k) n ++ t.extractLsb' lo k = t.extractLsb' lo (n + k) :=
    BitVec.extractLsb'_append_extractLsb'_eq_extractLsb' rfl
  symm
  rw [join 24 16 8, join 16 24 8, join 8 32 8, join 0 40 8]
  exact extract_all t

/-! ### Masks -/

/-- The mask of R73 selects the header pair. -/
theorem rxf_mask_iff (w : BitVec 64) :
    w &&& 0xFFFF000000000000 = 0xFFFE000000000000 ↔ w.extractLsb' 48 16 = 0xFFFE := by
  have hw : w = w.extractLsb' 48 16 ++ w.extractLsb' 0 48 :=
    (BitVec.extractLsb'_append_extractLsb' (w := 16) (len := 48)).symm
  have hmask : (0xFFFF000000000000 : BitVec 64) = BitVec.allOnes 16 ++ 0#48 := by decide
  have hvalue : (0xFFFE000000000000 : BitVec 64) = 0xFFFE#16 ++ 0#48 := by decide
  have hand : w &&& 0xFFFF000000000000 = w.extractLsb' 48 16 ++ 0#48 :=
    calc w &&& 0xFFFF000000000000
        = (w.extractLsb' 48 16 ++ w.extractLsb' 0 48) &&& (BitVec.allOnes 16 ++ 0#48) := by rw [← hw, hmask]
      _ = w.extractLsb' 48 16 ++ 0#48 := by rw [and_append, BitVec.and_allOnes, BitVec.and_zero]
  rw [hand, hvalue]
  exact BitVec.append_left_inj _

/-- The mask of R76 selects the header pair and the upper seven bits of each direction byte. -/
theorem txf_mask_iff (t : BitVec 48) :
    t &&& 0xFFFF00FE00FE = 0xFFFE00000000 ↔
      t.extractLsb' 32 16 = 0xFFFE ∧ t.extractLsb' 16 8 &&& 0xFE = 0 ∧ t.extractLsb' 0 8 &&& 0xFE = 0 := by
  have hmask : (0xFFFF00FE00FE : BitVec 48) = BitVec.allOnes 16 ++ 0#8 ++ 0xFE#8 ++ 0#8 ++ 0xFE#8 := by decide
  have hvalue : (0xFFFE00000000 : BitVec 48) = 0xFFFE#16 ++ 0#8 ++ 0#8 ++ 0#8 ++ 0#8 := by decide
  have hand : t &&& 0xFFFF00FE00FE =
      t.extractLsb' 32 16 ++ 0#8 ++ (t.extractLsb' 16 8 &&& 0xFE#8) ++ 0#8 ++ (t.extractLsb' 0 8 &&& 0xFE#8) := by
    conv_lhs => rw [eq_append_fields t, hmask]
    repeat rw [and_append]
    rw [BitVec.and_allOnes, BitVec.and_zero, BitVec.and_zero]
  rw [hand, hvalue]
  repeat rw [append_inj_iff]
  simp [and_assoc]

/-- A direction byte is legal exactly if its upper seven bits are 0 (R76). -/
theorem dirByteOk_iff_mask : ∀ d : Byte, dirByteOk d = true ↔ d &&& 0xFE = 0 := by decide

/-! ### Frames received and sent -/

@[simp] theorem feed_nil (s : State) : feed [] s = ([], s) := rfl

/-- The first byte's observations come before those of the rest, which start from the state it leaves. -/
theorem feed_cons (b : Byte) (bs : List Byte) (s : State) :
    feed (b :: bs) s = ((s.receive b).obs ++ (feed bs (s.receive b)).1, (feed bs (s.receive b)).2) := rfl

/-- The reception of bytes in one step is their RX_BYTE events in order, every observation kept (R82; log entry 1). -/
theorem receiveAll_eq_feed (bs : List Byte) (s : State) :
    receiveAll bs s = { (feed bs s).2 with obs := (feed bs s).1 } := by
  induction bs generalizing s with
  | nil => rfl
  | cons b bs ih => rw [receiveAll_cons, feed_cons, ih]

/-- A CMD_TICK sends nothing, or the frame of the wheel command that the registers hold after it (R186, R201). -/
theorem exec_cmdTick_tx {s t : State} (h : exec .cmdTick s = .next t) :
    t.tx = s.tx ∨ t.tx = s.tx ++ (encFrame t.wcmd).toList := by
  obtain rfl : s.perform cmdTickRule = t := by simpa using h
  refine s.perform_induction (P := fun t => t.tx = s.tx ∨ t.tx = s.tx ++ (encFrame t.wcmd).toList) _ (.inl rfl)
    fun _ => ?_
  rcases cmdTickRule_cases s with ⟨c, -, e⟩ | ⟨cause, -, e⟩ <;> rw [e]
  · exact .inr rfl
  · by_cases hp : s.par.cmdFaultPolicy = .resend
    · exact .inr (if_pos hp)
    · exact .inl (if_neg hp)

/-- The frame of a wheel command is the encoding of the output frame with its fields, most significant byte first (R75,
R80, R166). -/
theorem exists_word_of_encFrame (c : WheelCommand) :
    ∃ w : BitVec 48, encode (.txFrame c.lmag (c.ldir.setWidth 8) c.rmag (c.rdir.setWidth 8)) = .txf w ∧
      (encFrame c).toList = [w.extractLsb' 40 8, w.extractLsb' 32 8, w.extractLsb' 24 8, w.extractLsb' 16 8,
        w.extractLsb' 8 8, w.extractLsb' 0 8] := by
  obtain ⟨-, h0, h1, hlmag, hldir, hrmag, hrdir⟩ :=
    six_fields Config.hdr0 Config.hdr1 c.lmag (c.ldir.setWidth 8) c.rmag (c.rdir.setWidth 8)
  refine ⟨_, rfl, ?_⟩
  rw [h0, h1, hlmag, hldir, hrmag, hrdir]
  rfl

/-- The output frame of any wheel command is well formed (R76). -/
theorem wellFormed_txFrame_wheelCommand (c : WheelCommand) :
    (Instr.txFrame c.lmag (c.ldir.setWidth 8) c.rmag (c.rdir.setWidth 8)).wellFormed = true := by
  have hdir : ∀ d : BitVec 1, dirByteOk (d.setWidth 8) = true := by decide
  rw [Instr.wellFormed, hdir, hdir]
  rfl

/-! ### The statements -/

/-- Settles O2: one clause per code. -/
theorem eventWordFields : Obligations.EventWordFields :=
  fun _ => ⟨decode_ev_rxByte, decode_ev_rxIdle, decode_ev_setCmd, decode_ev_odomTick, decode_ev_battTick,
    decode_ev_cmdTick, decode_ev_reset, decode_ev_reserved⟩

/-- Settles O1: the code and the payload of each event word, and the fields of the two frames, stand where the decoder
reads them. -/
theorem decodeEncodeRoundTrip : Obligations.DecodeEncodeRoundTrip := by
  intro i hwf
  cases i with
  | rxByte b =>
    have hb : (eventWord b 0b000).extractLsb' 3 8 = b :=
      (eventWord_payload b _ 0 8 (by omega)).trans (extract_all b)
    simpa only [encode, hb] using decode_ev_rxByte (eventWord_code b 0b000)
  | rxIdle => exact decode_ev_rxIdle (eventWord_code 0#0 _)
  | setCmd vx vyaw =>
    have hvx : (eventWord (vyaw ++ vx) 0b010).extractLsb' 3 64 = vx :=
      (eventWord_payload _ _ 0 64 (by omega)).trans BitVec.extractLsb'_append_eq_right
    have hvyaw : (eventWord (vyaw ++ vx) 0b010).extractLsb' 67 64 = vyaw :=
      (eventWord_payload _ _ 64 64 (by omega)).trans BitVec.extractLsb'_append_eq_left
    simpa only [encode, hvx, hvyaw] using decode_ev_setCmd (eventWord_code (vyaw ++ vx) 0b010)
  | odomTick => exact decode_ev_odomTick (eventWord_code 0#0 _)
  | battTick => exact decode_ev_battTick (eventWord_code 0#0 _)
  | cmdTick => exact decode_ev_cmdTick (eventWord_code 0#0 _)
  | reset chanOk =>
    have hbit : (eventWord (BitVec.ofBool chanOk) 0b110).getLsbD 3 = chanOk := by cases chanOk <;> decide
    simpa only [encode, hbit] using decode_ev_reset (eventWord_code (BitVec.ofBool chanOk) 0b110)
  | reserved => exact decode_ev_reserved (eventWord_code 0#0 _)
  | rxFrame vL vR bat =>
    obtain ⟨hheader, hvL, hvR, hbat⟩ := four_fields (Config.hdr0 ++ Config.hdr1) vL vR bat
    simpa only [encode, hvL, hvR, hbat] using decode_rxf_of_header hheader
  | txFrame lmag ldir rmag rdir =>
    obtain ⟨hl, hr⟩ : dirByteOk ldir = true ∧ dirByteOk rdir = true := by simpa [Instr.wellFormed] using hwf
    obtain ⟨hheader, -, -, hlmag, hldir, hrmag, hrdir⟩ := six_fields Config.hdr0 Config.hdr1 lmag ldir rmag rdir
    simpa only [encode, hlmag, hldir, hrmag, hrdir] using
      decode_txf_of_header hheader (by rwa [hldir]) (by rwa [hrdir])

/-- Settles O3: the mask and the decoder look at the first byte pair of the packed window only. -/
theorem inputFrameIffHeaderPair : Obligations.InputFrameIffHeaderPair := by
  intro win
  have hpair : (packWindow win).extractLsb' 48 16 = 0xFF#8 ++ 0xFE#8 ↔ win[0] = 0xFF ∧ win[1] = 0xFE := by
    rw [packWindow_header, append_inj_iff]
    rfl
  exact ⟨hpair.symm.trans (rxf_mask_iff _).symm, (exists_decode_rxf_iff _).trans hpair⟩

/-- Settles O4: the mask asks of the fields what the decoder asks. -/
theorem outputFrameIffMask : Obligations.OutputFrameIffMask := by
  intro t
  rw [exists_decode_txf_iff, txf_mask_iff, dirByteOk_iff_mask, dirByteOk_iff_mask]
  rfl

/-- Settles O5: the fields are the later byte pairs of the packed window. -/
theorem inputFrameFields : Obligations.InputFrameFields := by
  intro win w
  obtain ⟨-, hleft, hright, hbattery⟩ :=
    four_fields (win[0] ++ win[1]) (win[2] ++ win[3]) (win[4] ++ win[5]) (win[6] ++ win[7])
  rw [← packWindow_eq_pairs] at hleft hright hbattery
  have hl : frameLeft w = win[2].toNat * 256 + win[3].toNat :=
    (congrArg BitVec.toNat hleft).trans (toNat_append_bytes _ _)
  have hr : frameRight w = win[4].toNat * 256 + win[5].toNat :=
    (congrArg BitVec.toNat hright).trans (toNat_append_bytes _ _)
  have hb : frameBattery w = win[6].toNat * 256 + win[7].toNat :=
    (congrArg BitVec.toNat hbattery).trans (toNat_append_bytes _ _)
  have hrange : ∀ x : BitVec 16, x.toNat ≤ 65535 := fun x => Nat.le_of_lt_succ x.isLt
  exact ⟨hl, rfl, hr, rfl, hb, rfl, hrange _, hrange _, hrange _⟩

/-- Settles O15: the frame's bytes, received in one step or one by one. -/
theorem rxFrameIsEightBytes : Obligations.RxFrameIsEightBytes :=
  fun s vL vR bat => congrArg Host.Outcome.next (receiveAll_eq_feed (rxFrameBytes vL vR bat).toList s)

/-- Settles O41: what a CMD_TICK sends is the encoding of a well-formed output frame, so it passes the mask of its row
and decodes to what was encoded. -/
theorem sentFramesPassMask : Obligations.SentFramesPassMask := by
  intro i s t h
  by_cases hi : i = .cmdTick
  · subst hi
    refine (exec_cmdTick_tx h).imp_right fun htx => ⟨rfl, ?_⟩
    obtain ⟨w, henc, hbytes⟩ := exists_word_of_encFrame t.wcmd
    have hwf := wellFormed_txFrame_wheelCommand t.wcmd
    have hrow := Laws.TableMatch.txFrame _ _ _ _ hwf
    have hdecode := decodeEncodeRoundTrip _ hwf
    rw [henc] at hrow hdecode
    exact ⟨w, hrow, hdecode, htx.trans (congrArg _ hbytes)⟩
  · obtain ⟨-, -, -, -, htx⟩ := eachRegisterHasOneWriter i s t h
    exact .inl (htx hi)

/-- Settles O6: each word by evaluation of the decoder. -/
theorem writtenWordsDecode : Obligations.WrittenWordsDecode := by
  unfold Obligations.WrittenWordsDecode
  decide

end Sys2Proof.Machine

/-! PROOFS. One byte of the synchronizer (40_synchronizer.md R101 to R104, R111, R112): what it does to the window and to the
bytes held there, which of the events strobe, and the input frame that finds the window empty. -/

namespace Sys2Proof.Machine

/-! ### Windows as lists of bytes -/

theorem window_eq_cells (w : Vector Byte 8) : w = #v[w[0], w[1], w[2], w[3], w[4], w[5], w[6], w[7]] := by
  apply Vector.ext
  intro i hi
  interval_cases i <;> rfl

theorem State.held_of_empty (s : State) (hn : s.winN = 0) : s.held = [] := by
  simp [State.held, hn]

/-- A window of seven held bytes, completed by one more, is those eight bytes. -/
theorem toList_set_last {s : State} (hn : s.winN = 7) (b : Byte) : (s.win.set 7 b).toList = s.held ++ [b] := by
  rw [State.held, hn, ← List.take_of_length_le (l := (s.win.set 7 b).toList) (i := 8) (by simp)]
  exact take_set_window s.win 7 (by decide) b

/-- The header test reads the first two held bytes. -/
theorem headerOk_iff_prefix {s : State} (hn : s.winN = 7) :
    headerOk s.win = true ↔ [Config.hdr0, Config.hdr1] <+: s.held := by
  have hheld : s.held = [s.win[0], s.win[1], s.win[2], s.win[3], s.win[4], s.win[5], s.win[6]] := by
    rw [State.held, hn, window_eq_cells s.win]
    rfl
  rw [headerOk_iff, hheld]
  simp [Config.hdr0, Config.hdr1, eq_comm]

/-- A packed window, its last byte just stored (R102). -/
theorem packWindow_set_last (w : Vector Byte 8) (b : Byte) :
    packWindow (w.set 7 b) = w[0] ++ w[1] ++ w[2] ++ w[3] ++ w[4] ++ w[5] ++ w[6] ++ b := by
  simp [packWindow]

/-- A slid window, its last byte just stored (R103). -/
theorem slideWindow_set_last (w : Vector Byte 8) (b : Byte) :
    slideWindow (w.set 7 b) = #v[w[1], w[2], w[3], w[4], w[5], w[6], b, b] := by
  simp [slideWindow]

/-- SYNC_FILL that completes the window, which is checked at once (R101). -/
theorem syncFill_of_full (b : Byte) {s : State} (hn : s.winN = 7) :
    syncFill b s = syncCheck { s with win := s.win.set 7 b } := by
  simp [syncFill, hn]

/-! ### Bytes packed into a frame -/

/-- One more byte packed onto a word is appended to it, as far as 64 bits go. -/
theorem shiftLeft_or_byte {n : Nat} (x : BitVec n) (b : Byte) :
    (x.setWidth 64 <<< 8) ||| b.setWidth 64 = (x ++ b).setWidth 64 := by
  ext i hi
  by_cases h : i < 8
  · simp [BitVec.getLsbD_append, h]
  · have hb : b.getLsbD i = false := BitVec.getLsbD_of_ge b i (Nat.le_of_not_lt h)
    simp [BitVec.getLsbD_append, h, hb]

/-- The bytes of a window, packed one by one (R72). -/
theorem packBytes_toList (w : Vector Byte 8) : packBytes w.toList = packWindow w := by
  have hfirst : (0 : BitVec 64) <<< 8 ||| w[0].setWidth 64 = w[0].setWidth 64 := by simp
  calc packBytes w.toList
      = packBytes [w[0], w[1], w[2], w[3], w[4], w[5], w[6], w[7]] := congrArg (packBytes ·.toList) (window_eq_cells w)
    _ = (packWindow w).setWidth 64 := by
      simp only [packBytes, List.foldl_cons, List.foldl_nil, hfirst]
      iterate 7 rw [shiftLeft_or_byte]
      rfl
    _ = packWindow w := BitVec.setWidth_eq _

/-- The packed bytes of an input wire frame are its header pair and its three fields (R72, R74). -/
theorem packWindow_rxFrameBytes (vL vR bat : BitVec 16) :
    packWindow (rxFrameBytes vL vR bat) = 0xFFFE#16 ++ vL ++ vR ++ bat := by
  have hpair (x : BitVec 16) : x.extractLsb' 8 8 ++ x.extractLsb' 0 8 = x :=
    BitVec.extractLsb'_append_extractLsb'
  calc packWindow (rxFrameBytes vL vR bat)
      = (Config.hdr0 ++ Config.hdr1) ++ (vL.extractLsb' 8 8 ++ vL.extractLsb' 0 8) ++
          (vR.extractLsb' 8 8 ++ vR.extractLsb' 0 8) ++ (bat.extractLsb' 8 8 ++ bat.extractLsb' 0 8) :=
        packWindow_eq_pairs _
    _ = 0xFFFE#16 ++ vL ++ vR ++ bat := by rw [hpair, hpair, hpair]; rfl

/-! ### One byte -/

section
variable {s : State} (b : Byte)

/-- A byte that does not fill the window is held after the others (R101). -/
theorem State.receive_fill (hm : s.mode = .run) (h : s.winN.val + 1 < 8) :
    s.receive b = { s with win := s.win.set s.winN b, winN := ⟨s.winN.val + 1, h⟩,
                           obs := [⟨.ok (some .fill), false⟩] } :=
  (s.perform_of_run _ hm).trans (syncFill_of_lt b s h)

/-- A byte that completes a window with the header pair publishes it (R102). -/
theorem State.receive_accept (hm : s.mode = .run) (hn : s.winN = 7) (hh : headerOk s.win = true) :
    s.receive b = { s with win := s.win.set 7 b, winN := 0, latestFrame := packWindow (s.win.set 7 b),
                           latestValid := true, obs := [⟨.ok (some .accept), true⟩] } :=
  (s.perform_of_run _ hm).trans (syncFill_accept b s hn hh)

/-- A byte that completes a window without the header pair slips the oldest (R103). -/
theorem State.receive_slip (hm : s.mode = .run) (hn : s.winN = 7) (hh : headerOk s.win = false) :
    s.receive b = { s with win := slideWindow (s.win.set 7 b), winN := 7, obs := [⟨.ok (some .slip), false⟩] } :=
  (s.perform_of_run _ hm).trans (syncFill_slip b s hn hh)

/-- What one byte received in RUN does to the held bytes, and what is seen of it (R101 to R103, R111). -/
theorem State.receive_held_cases (hm : s.mode = .run) :
    (s.held.length < 7 ∧ (s.receive b).held = s.held ++ [b] ∧
      (s.receive b).obs = [⟨.ok (some .fill), false⟩]) ∨
    (s.held.length = 7 ∧ [Config.hdr0, Config.hdr1] <+: s.held ∧ (s.receive b).held = [] ∧
      (s.receive b).latestFrame = packBytes (s.held ++ [b]) ∧
      (s.receive b).obs = [⟨.ok (some .accept), true⟩]) ∨
    (s.held.length = 7 ∧ ¬ [Config.hdr0, Config.hdr1] <+: s.held ∧ (s.receive b).held = (s.held ++ [b]).drop 1 ∧
      (s.receive b).obs = [⟨.ok (some .slip), false⟩]) := by
  rw [s.length_held]
  rcases s.receive_cases b with ⟨hf, -⟩ | ⟨-, h, e⟩ | ⟨-, hn, hh, e⟩ | ⟨-, hn, hh, e⟩
  · exact absurd (hm.symm.trans hf) (by decide)
  · refine .inl ⟨by omega, ?_, by rw [e]⟩
    rw [e]
    exact take_set_window s.win s.winN s.winN.isLt b
  · refine .inr (.inl ⟨congrArg Fin.val hn, (headerOk_iff_prefix hn).1 hh, by rw [e]; rfl, ?_, by rw [e]⟩)
    rw [e, ← toList_set_last hn, packBytes_toList]
  · refine .inr (.inr ⟨congrArg Fin.val hn, ?_, ?_, by rw [e]⟩)
    · rw [← headerOk_iff_prefix hn, hh]
      exact Bool.false_ne_true
    · rw [e, ← toList_set_last hn]
      exact take_slideWindow (s.win.set 7 b)

end

/-! ### Bytes that only fill -/

/-- A stream cut in two: the second part starts in the state that the first leaves. -/
theorem feed_append (xs ys : List Byte) (s : State) :
    feed (xs ++ ys) s = ((feed xs s).1 ++ (feed ys (feed xs s).2).1, (feed ys (feed xs s).2).2) := by
  induction xs generalizing s with
  | nil => rfl
  | cons x xs ih => rw [List.cons_append, feed_cons, ih, feed_cons, List.append_assoc]

/-- Bytes that do not fill the window are held after the others, and nothing else changes (R101). -/
theorem feed_fills (bs : List Byte) {s : State} (hm : s.mode = .run) (h : s.held.length + bs.length ≤ 7) :
    ∃ t, feed bs s = (List.replicate bs.length ⟨.ok (some .fill), false⟩, t) ∧ t.held = s.held ++ bs ∧
      ∃ win winN obs, t = { s with win := win, winN := winN, obs := obs } := by
  induction bs generalizing s with
  | nil => exact ⟨s, rfl, s.held.append_nil.symm, s.win, s.winN, s.obs, rfl⟩
  | cons b bs ih =>
    rw [s.length_held, List.length_cons] at h
    have hfill := State.receive_fill b hm (by omega)
    have hheld : (s.receive b).held = s.held ++ [b] := by
      rw [hfill]
      exact take_set_window s.win s.winN s.winN.isLt b
    have hrest : (s.receive b).held.length + bs.length ≤ 7 := by
      rw [hheld, List.length_append, s.length_held, List.length_singleton]
      omega
    obtain ⟨t, hfeed, hheld', win, winN, obs, ht⟩ := ih ((s.receive_mode b).trans hm) hrest
    refine ⟨t, ?_, ?_, win, winN, obs, ?_⟩
    · rw [feed_cons, hfeed, hfill]
      rfl
    · rw [hheld', hheld, List.append_assoc, List.singleton_append]
    · rw [ht, hfill]

/-! ### The strobe (R111, R112) -/

/-- Of the events only RX_BYTE strobes FRAME_PUB. -/
theorem framePub_of_not_receive {i : Instr} {s t : State} (hi : i.isEvent = true) (hb : ∀ b, i ≠ .rxByte b)
    (h : exec i s = .next t) : t.framePub = false := by
  have hperform (rule : State → State) (hrule : (rule s).framePub = false) : (s.perform rule).framePub = false :=
    s.perform_induction (P := fun t => t.framePub = false) rule rfl fun _ => hrule
  cases i with
  | rxByte b => exact absurd rfl (hb b)
  | rxIdle =>
    obtain rfl : s.perform syncIdle = t := by simpa using h
    exact hperform _ (by rw [syncIdle_eq]; rfl)
  | setCmd vx vyaw =>
    obtain rfl : s.perform (setCmdRule vx vyaw) = t := by simpa using h
    exact hperform _ rfl
  | odomTick =>
    obtain rfl : s.perform odomTickRule = t := by simpa using h
    refine hperform _ ?_
    rcases odomTickRule_cases s with ⟨-, e⟩ | ⟨-, _, -, e⟩ | ⟨-, _, -, e⟩ <;> rw [e] <;> rfl
  | battTick =>
    obtain rfl : s.perform battTickRule = t := by simpa using h
    refine hperform _ ?_
    rcases battTickRule_cases s with ⟨-, e⟩ | ⟨-, e⟩ <;> rw [e] <;> rfl
  | cmdTick =>
    obtain rfl : s.perform cmdTickRule = t := by simpa using h
    refine hperform _ ?_
    rcases cmdTickRule_cases s with ⟨_, -, e⟩ | ⟨_, -, e⟩ <;> rw [e] <;> rfl
  | reset chanOk =>
    obtain rfl : (s.resetRegisters s.envPar chanOk).observe (if chanOk then .ok none else .dead) = t := by
      simpa using h
    rfl
  | reserved =>
    obtain rfl : s.perform reservedRule = t := by simpa using h
    exact hperform _ rfl
  | rxFrame vL vR bat => exact absurd hi Bool.false_ne_true
  | txFrame lmag ldir rmag rdir => exact absurd hi Bool.false_ne_true

/-- One byte strobes exactly if it completes a window with the header pair (R102, R111). -/
theorem State.framePub_receive_iff (s : State) (b : Byte) :
    (s.receive b).framePub = true ↔ s.mode = .run ∧ s.winN = 7 ∧ headerOk s.win = true := by
  rcases s.receive_cases b with ⟨hf, e⟩ | ⟨-, h, e⟩ | ⟨hm, hn, hh, e⟩ | ⟨-, -, hh, e⟩ <;> rw [e]
  · simp [State.framePub, hf]
  · have hn : s.winN ≠ 7 := fun hn => by simp [hn] at h
    simp [State.framePub, hn]
  · simp [State.framePub, hm, hn, hh]
  · simp [State.framePub, hh]

/-! ### The statements -/

/-- Settles O11: the two branches of SYNC_FILL. -/
theorem rxByteFillsWindow : Obligations.RxByteFillsWindow := by
  intro s b hm
  refine ⟨fun h => congrArg Host.Outcome.next (State.receive_fill b hm h), fun hn => ?_⟩
  exact congrArg Host.Outcome.next ((s.perform_of_run _ hm).trans (syncFill_of_full b hn))

/-- Settles O12: the packed window, its last byte just stored. -/
theorem rxByteAcceptsFrame : Obligations.RxByteAcceptsFrame := by
  intro s b hm hn h0 h1
  rw [exec_rxByte, State.receive_accept b hm hn ((headerOk_iff _).2 ⟨h0, h1⟩), packWindow_set_last]

/-- Settles O13: the slid window, its last byte just stored. -/
theorem rxByteSlipsOneByte : Obligations.RxByteSlipsOneByte := by
  intro s b hm hn h
  have hh : headerOk s.win = false := by rwa [← Bool.not_eq_true, headerOk_iff]
  rw [exec_rxByte, State.receive_slip b hm hn hh, slideWindow_set_last]

/-- Settles O14: RX_IDLE's rule, performed in RUN. -/
theorem rxIdleKeepsOrFlushes : Obligations.RxIdleKeepsOrFlushes :=
  fun s hm => congrArg Host.Outcome.next ((s.perform_of_run _ hm).trans (syncIdle_eq s))

/-- Settles O16: the first seven bytes fill the window, and the eighth completes one with the header pair. -/
theorem rxFramePublishedWhenAligned : Obligations.RxFramePublishedWhenAligned := by
  intro s vL vR bat hm hn
  have hsplit : (rxFrameBytes vL vR bat).toList =
      (rxFrameBytes vL vR bat).toList.take 7 ++ [bat.extractLsb' 0 8] := rfl
  have hempty := s.held_of_empty hn
  obtain ⟨t, hfeed, hheld, win, winN, obs, ht⟩ :=
    feed_fills ((rxFrameBytes vL vR bat).toList.take 7) hm (by simp [hempty])
  rw [hempty, List.nil_append] at hheld
  have hfull : t.winN = 7 := by
    have hlen := t.length_held
    rw [hheld] at hlen
    exact Fin.ext hlen.symm
  have hheader : headerOk t.win = true := by
    rw [headerOk_iff_prefix hfull, hheld]
    exact ⟨_, rfl⟩
  have hwin : t.win.set 7 (bat.extractLsb' 0 8) = rxFrameBytes vL vR bat := by
    rw [← Vector.toList_inj, toList_set_last hfull, hheld, ← hsplit]
  have hlast := State.receive_accept (bat.extractLsb' 0 8) (by rw [ht]; exact hm) hfull hheader
  rw [hwin, packWindow_rxFrameBytes] at hlast
  rw [exec_rxFrame, receiveAll_eq_feed, hsplit, feed_append, hfeed, feed_cons, hlast, ht]
  rfl

/-- Settles O17: of the events only RX_BYTE strobes, and it does so when it accepts. -/
theorem strobeExactlyOnAccept : Obligations.StrobeExactlyOnAccept := by
  intro i s t hi h
  by_cases hb : ∃ b, i = .rxByte b
  · obtain ⟨b, rfl⟩ := hb
    obtain rfl : s.receive b = t := by simpa using h
    rw [s.framePub_receive_iff, headerOk_iff]
    exact ⟨fun hrun => ⟨⟨b, rfl⟩, hrun⟩, fun ⟨_, hrun⟩ => hrun⟩
  · have hquiet := framePub_of_not_receive hi (fun b e => hb ⟨b, e⟩) h
    exact ⟨fun hp => absurd (hp.symm.trans hquiet) (by decide), fun ⟨hrx, _⟩ => absurd hrx hb⟩

/-- Settles O18: of the other events none writes the latest frame, and an RX_BYTE that writes it strobes. -/
theorem latestFrameStaysUntilSuperseded : Obligations.LatestFrameStaysUntilSuperseded := by
  intro i s t hi hne h hquiet
  by_cases hb : ∃ b, i = .rxByte b
  · obtain ⟨b, rfl⟩ := hb
    obtain rfl : s.receive b = t := by simpa using h
    rcases s.receive_cases b with ⟨-, e⟩ | ⟨-, _, e⟩ | ⟨hm, hn, hh, -⟩ | ⟨-, -, -, e⟩
    · rw [e]; exact ⟨rfl, rfl⟩
    · rw [e]; exact ⟨rfl, rfl⟩
    · have hstrobe := (s.framePub_receive_iff b).2 ⟨hm, hn, hh⟩
      exact absurd (hstrobe.symm.trans hquiet) (by decide)
    · rw [e]; exact ⟨rfl, rfl⟩
  · obtain ⟨-, -, -, hkept, -⟩ := eachRegisterHasOneWriter i s t h
    obtain ⟨-, -, -, -, hreceiver, -⟩ := hkept hne
    obtain ⟨-, hframe, hvalid, -⟩ := hreceiver (fun b e => hb ⟨b, e⟩)
      (fun _ _ _ e => by rw [e] at hi; exact absurd hi Bool.false_ne_true)
    exact ⟨hframe, hvalid⟩

end Sys2Proof.Machine

/-! PROOFS. Streams of bytes (40_synchronizer.md R107, R108, R110): what they publish and how many bytes slip, by a balance of
the bytes received and by the early-rejecting synchronizer, which publishes the same. -/

namespace Sys2Proof.Machine

/-! ### Streams -/

/-- What the first byte publishes, then what the rest does. -/
theorem published_cons (b : Byte) (bs : List Byte) (s : State) :
    published (b :: bs) s =
      (if (s.receive b).framePub then some (s.receive b).latestFrame else none) :: published bs (s.receive b) := rfl

/-- The number of slips among the observations (R103). -/
def slipCount (obs : List Observation) : Nat := obs.countP (fun o => o.outcome == .ok (some .slip))

/-- Every byte held or received is held in the end, was slipped, or is one of the eight bytes of a published frame. -/
theorem held_add_slips_add_published (bs : List Byte) {s : State} (hm : s.mode = .run) :
    (feed bs s).2.held.length + slipCount (feed bs s).1 + 8 * (published bs s).countP Option.isSome =
      s.held.length + bs.length := by
  induction bs generalizing s with
  | nil => simp [published, slipCount]
  | cons b bs ih =>
    have hrest := ih ((s.receive_mode b).trans hm)
    rw [feed_cons, published_cons]
    rcases s.receive_held_cases b hm with ⟨-, hheld, ho⟩ | ⟨h7, -, hheld, -, ho⟩ | ⟨-, -, hheld, ho⟩ <;>
      simp [slipCount, State.framePub, ho, hheld] at hrest ⊢ <;> omega

/-- A stream whose last byte publishes a frame leaves the window empty (R102). -/
theorem held_of_getLast_published {f : BitVec 64} (bs : List Byte) {s : State} (hm : s.mode = .run)
    (h : (published bs s).getLast? = some (some f)) : (feed bs s).2.held = [] := by
  induction bs generalizing s with
  | nil => simp [published] at h
  | cons b bs ih =>
    rw [published_cons] at h
    rw [feed_cons_state]
    cases bs with
    | nil =>
      rcases s.receive_held_cases b hm with ⟨-, -, ho⟩ | ⟨-, -, hheld, -⟩ | ⟨-, -, -, ho⟩
      · simp [published, State.framePub, ho] at h
      · exact hheld
      · simp [published, State.framePub, ho] at h
    | cons c cs =>
      rw [published_cons, List.getLast?_cons_cons, ← published_cons] at h
      exact ih ((s.receive_mode b).trans hm) h

/-! ### The early slip (R108) -/

theorem earlySlip_of_header {held : List Byte} (h : [Config.hdr0, Config.hdr1] <+: held) : earlySlip held = held := by
  obtain ⟨rest, rfl⟩ := h
  simp [earlySlip]

theorem earlySlip_of_not_header {held : List Byte} (hlen : 2 ≤ held.length)
    (h : ¬ [Config.hdr0, Config.hdr1] <+: held) : earlySlip held = earlySlip (held.drop 1) := by
  match held, hlen with
  | a :: b :: rest, _ =>
    rw [earlySlip, if_neg]
    · rfl
    · rintro ⟨rfl, rfl⟩
      exact h (List.prefix_append _ rest)

theorem length_earlySlip_le (held : List Byte) : (earlySlip held).length ≤ held.length := by
  induction held using earlySlip.induct with
  | case1 a b rest h => simp [earlySlip, h]
  | case2 a b rest h ih =>
    rw [earlySlip, if_neg h]
    exact ih.trans (Nat.le_succ _)
  | case3 bs h => rw [earlySlip]; exact h

/-- A slip that is made before a byte arrives may as well be made after it. -/
theorem earlySlip_earlySlip_append (held : List Byte) (b : Byte) :
    earlySlip (earlySlip held ++ [b]) = earlySlip (held ++ [b]) := by
  induction held using earlySlip.induct with
  | case1 a c rest h => simp [earlySlip, h]
  | case2 a c rest h ih => simpa [earlySlip, h] using ih
  | case3 bs h => rw [earlySlip.eq_2 bs h]

/-- The early-rejecting synchronizer publishes the same frames: what it holds is what is left of the window when the bytes
that will be slipped anyway are gone. -/
theorem published_eq_earlyPublished (bs : List Byte) {s : State} (hm : s.mode = .run) :
    published bs s = earlyPublished (earlySlip s.held) bs := by
  induction bs generalizing s with
  | nil => rfl
  | cons b bs ih =>
    have hrest := ih ((s.receive_mode b).trans hm)
    rw [published_cons, hrest, earlyPublished, earlySlip_earlySlip_append]
    rcases s.receive_held_cases b hm with ⟨hlt, hheld, ho⟩ | ⟨h7, hh, hheld, hframe, ho⟩ | ⟨h7, hh, hheld, ho⟩
    · have hshort : (earlySlip (s.held ++ [b])).length ≠ 8 := by
        have hle := length_earlySlip_le (s.held ++ [b])
        simp only [List.length_append, List.length_singleton] at hle
        omega
      simp [State.framePub, ho, hheld, hshort]
    · have hkeep : earlySlip (s.held ++ [b]) = s.held ++ [b] :=
        earlySlip_of_header (hh.trans (List.prefix_append _ _))
      have hempty : earlySlip [] = [] := by simp [earlySlip]
      simp [State.framePub, ho, hheld, hkeep, h7, hframe, hempty]
    · have hslip : earlySlip (s.held ++ [b]) = earlySlip (s.receive b).held := by
        rw [hheld]
        refine earlySlip_of_not_header (by simp [h7]) fun h => hh ?_
        exact List.prefix_of_prefix_length_le h (List.prefix_append _ _) (by simp [h7])
      have hshort : (earlySlip (s.receive b).held).length ≠ 8 := by
        have hle := length_earlySlip_le (s.receive b).held
        rw [(s.receive b).length_held] at hle
        have hlt : (s.receive b).winN.val < 8 := (s.receive b).winN.isLt
        omega
      simp [State.framePub, ho, hslip, hshort]

/-- From an empty window both synchronizers publish the same (R108). -/
theorem published_of_empty (bs : List Byte) {s : State} (hm : s.mode = .run) (hn : s.winN = 0) :
    published bs s = earlyPublished [] bs := by
  rw [published_eq_earlyPublished bs hm, s.held_of_empty hn, earlySlip]
  simp

/-! ### Noise, then a frame (R107) -/

theorem hasHeaderPair_iff_infix (bs : List Byte) :
    hasHeaderPair bs = true ↔ [Config.hdr0, Config.hdr1] <:+: bs := by
  induction bs using hasHeaderPair.induct with
  | case1 a b rest ih =>
    rw [hasHeaderPair, Bool.or_eq_true, ih, List.infix_cons_iff (a := a)]
    simp only [Bool.and_eq_true, beq_iff_eq, List.cons_prefix_cons, List.nil_prefix, and_true, eq_comm (b := a),
      eq_comm (b := b)]
  | case2 bs hbs =>
    rw [hasHeaderPair.eq_2 bs hbs]
    match bs, hbs with
    | [], _ => simp
    | [a], _ => simp [List.infix_cons_iff]
    | a :: b :: rest, hbs => exact absurd rfl (hbs a b rest)

/-- Noise without the header pair is slipped early but for its last byte. -/
theorem earlySlip_of_noise {bs : List Byte} (h : hasHeaderPair bs = false) :
    earlySlip bs = bs.drop (bs.length - 1) := by
  induction bs using hasHeaderPair.induct with
  | case1 a b rest ih =>
    obtain ⟨hab, hrest⟩ : ¬(a = Config.hdr0 ∧ b = Config.hdr1) ∧ hasHeaderPair (b :: rest) = false := by
      simpa [hasHeaderPair] using h
    rw [earlySlip, if_neg hab, ih hrest]
    rfl
  | case2 bs hbs =>
    rw [earlySlip.eq_2 bs hbs]
    match bs, hbs with
    | [], _ => rfl
    | [a], _ => rfl
    | a :: b :: rest, hbs => exact absurd rfl (hbs a b rest)

/-- While there is noise only, nothing is published (R107). -/
theorem earlyPublished_noise {held bs : List Byte} (cs : List Byte) (h : hasHeaderPair (held ++ bs) = false) :
    earlyPublished (earlySlip held) (bs ++ cs) =
      List.replicate bs.length none ++ earlyPublished (earlySlip (held ++ bs)) cs := by
  induction bs generalizing held with
  | nil => simp
  | cons b bs ih =>
    have hsplit : held ++ b :: bs = held ++ [b] ++ bs := by simp
    rw [hsplit] at h ⊢
    have hshort : (earlySlip (held ++ [b])).length ≠ 8 := by
      have hnoise : hasHeaderPair (held ++ [b]) = false := by
        rw [← Bool.not_eq_true, hasHeaderPair_iff_infix] at h ⊢
        exact fun hinfix => h (hinfix.trans (List.prefix_append _ bs).isInfix)
      rw [earlySlip_of_noise hnoise, List.length_drop]
      omega
    rw [List.cons_append, earlyPublished, earlySlip_earlySlip_append]
    rw [if_neg hshort, ih h]
    rfl

/-- The first byte of a header adds no header pair to the noise before it. -/
theorem hasHeaderPair_append_hdr0 {noise : List Byte} (h : hasHeaderPair noise = false) :
    hasHeaderPair (noise ++ [Config.hdr0]) = false := by
  rw [← Bool.not_eq_true, hasHeaderPair_iff_infix] at h ⊢
  rw [List.infix_concat_iff]
  rintro (⟨pre, hpre⟩ | hinfix)
  · have hlast : Config.hdr1 = Config.hdr0 := by simpa using congrArg List.getLast? hpre
    exact absurd hlast (by decide)
  · exact h hinfix

/-- Fewer bytes than a frame has publish nothing. -/
theorem earlyPublished_of_short {held bs : List Byte} (h : held.length + bs.length < 8) :
    earlyPublished held bs = List.replicate bs.length none := by
  induction bs generalizing held with
  | nil => rfl
  | cons b bs ih =>
    have hle := length_earlySlip_le (held ++ [b])
    simp only [List.length_append, List.length_cons, List.length_nil] at h hle
    rw [earlyPublished, if_neg (by omega), ih (by omega)]
    rfl

/-- The first byte of a header held, the rest of the frame publishes it in its last step and nothing before. -/
theorem earlyPublished_frame {payload : List Byte} (rest : List Byte) (hlen : payload.length = 6) :
    earlyPublished [Config.hdr0] (Config.hdr1 :: payload ++ rest) =
      List.replicate 6 none ++
        some (packBytes (Config.hdr0 :: Config.hdr1 :: payload)) :: earlyPublished [] rest := by
  match payload, hlen with
  | [a, b, c, d, e, f], _ => simp [earlyPublished, earlySlip]

/-- Noise without the header pair, then a frame: the frame is the first published, in the step of its last byte, and the
window is empty after it. -/
theorem earlyPublished_noise_frame {noise payload : List Byte} (rest : List Byte) (hnoise : hasHeaderPair noise = false)
    (hlen : payload.length = 6) :
    earlyPublished [] (noise ++ (Config.hdr0 :: Config.hdr1 :: payload) ++ rest) =
      List.replicate (noise.length + 7) none ++
        some (packBytes (Config.hdr0 :: Config.hdr1 :: payload)) :: earlyPublished [] rest := by
  have hpair := hasHeaderPair_append_hdr0 hnoise
  have hheld : earlySlip (noise ++ [Config.hdr0]) = [Config.hdr0] := by simpa using earlySlip_of_noise hpair
  calc earlyPublished [] (noise ++ (Config.hdr0 :: Config.hdr1 :: payload) ++ rest)
      = earlyPublished (earlySlip []) ((noise ++ [Config.hdr0]) ++ (Config.hdr1 :: payload ++ rest)) := by
        simp [earlySlip]
    _ = List.replicate (noise.length + 1) none ++ earlyPublished [Config.hdr0] (Config.hdr1 :: payload ++ rest) := by
        rw [earlyPublished_noise _ (by simpa using hpair), List.nil_append, hheld]
        simp
    _ = _ := by
        rw [earlyPublished_frame rest hlen, ← List.append_assoc, List.replicate_append_replicate]

/-- The synchronizer itself, from an empty window, publishes after noise what the early-rejecting one does (R107). -/
theorem published_noise_frame {s : State} {noise payload : List Byte} (rest : List Byte) (hm : s.mode = .run)
    (hn : s.winN = 0) (hnoise : hasHeaderPair noise = false) (hlen : payload.length = 6) :
    published (noise ++ (0xFF :: 0xFE :: payload) ++ rest) s =
      List.replicate (noise.length + 7) none ++
        some (packBytes (0xFF :: 0xFE :: payload)) :: earlyPublished [] rest :=
  (published_of_empty _ hm hn).trans (earlyPublished_noise_frame rest hnoise hlen)

/-! ### Back-to-back frames (R110) -/

/-- What the steps of one input frame publish, its three fields given (R72, R110). -/
def framePublications (f : BitVec 16 × BitVec 16 × BitVec 16) : List (Option (BitVec 64)) :=
  List.replicate 7 none ++ [some (0xFFFE#16 ++ f.1 ++ f.2.1 ++ f.2.2)]

theorem earlyPublished_frames (fs : List (BitVec 16 × BitVec 16 × BitVec 16)) :
    earlyPublished [] (fs.flatMap fun f => (rxFrameBytes f.1 f.2.1 f.2.2).toList) =
      fs.flatMap framePublications := by
  induction fs with
  | nil => rfl
  | cons f fs ih =>
    have hframe := (packBytes_toList _).trans (packWindow_rxFrameBytes f.1 f.2.1 f.2.2)
    rw [List.flatMap_cons, List.flatMap_cons, ← ih, framePublications, ← hframe, List.append_assoc]
    exact earlyPublished_noise_frame (noise := []) _ rfl rfl

/-! ### The statements -/

/-- Settles O21: in an empty window neither synchronizer holds a byte. -/
theorem earlyRejectionPublishesTheSame : Obligations.EarlyRejectionPublishesTheSame :=
  fun bs _ hm hn => published_of_empty bs hm hn

/-- Settles O20: the publications are those of the early synchronizer; the slips are what the balance of held, slipped and
published bytes leaves of the noise. -/
theorem syncRecoversAfterNoise : Obligations.SyncRecoversAfterNoise := by
  intro s payload hm hn hlen
  refine ⟨fun noise rest hnoise => ⟨?_, ?_⟩, ?_⟩
  · rw [published_noise_frame rest hm hn hnoise hlen, List.append_cons, List.take_left']
    simp
  · have hpub : published (noise ++ (0xFF :: 0xFE :: payload)) s =
        List.replicate (noise.length + 7) none ++ [some (packBytes (0xFF :: 0xFE :: payload))] := by
      simpa [earlyPublished] using published_noise_frame [] hm hn hnoise hlen
    have hempty := s.held_of_empty hn
    have hheld := held_of_getLast_published _ hm (by rw [hpub, List.getLast?_concat])
    have hbalance := held_add_slips_add_published (noise ++ (0xFF :: 0xFE :: payload)) hm
    have hcount : (published (noise ++ (0xFF :: 0xFE :: payload)) s).countP Option.isSome = 1 := by
      rw [hpub]
      simp [List.countP_replicate]
    rw [hheld, hempty, hcount] at hbalance
    simp only [List.length_append, List.length_cons, List.length_nil, hlen] at hbalance
    show slipCount _ = _
    omega
  · have hfour : (0xFF :: 0xFE :: payload.take 4 : List Byte).length = 6 := by simp [hlen]
    have hrest : earlyPublished [] (payload.drop 4) = [none, none] := by
      rw [earlyPublished_of_short (by simp [hlen]), List.length_drop, hlen]
      rfl
    have h := published_noise_frame (noise := []) (payload.drop 4) hm hn rfl hfour
    simpa [hrest] using h

/-- Settles O22: each frame is noise-free, and published frames leave no byte of the stream to be slipped. -/
theorem lockedTrackingPublishesEveryFrame : Obligations.LockedTrackingPublishesEveryFrame := by
  intro fs s hm hn stream
  have hpub : published stream s = fs.flatMap framePublications :=
    (published_of_empty _ hm hn).trans (earlyPublished_frames fs)
  have hlen : stream.length = 8 * fs.length := by simp [stream, List.length_flatMap, mul_comm]
  have hcount : (published stream s).countP Option.isSome = fs.length := by
    rw [hpub]
    simp [framePublications, List.countP_flatMap, Function.comp_def]
  have hempty := s.held_of_empty hn
  have hbalance := held_add_slips_add_published stream hm
  rw [hcount, hlen, hempty, List.length_nil] at hbalance
  refine ⟨hpub, ?_⟩
  show slipCount _ = 0
  omega

end Sys2Proof.Machine

/-! PROOFS. The telemetry decoder in binary64 (41_telemetry_decode.md R123): rounding is odd, monotone and bounded (00_scope.md
R12), hence so are the quotient and the product that decode a speed field; and the round trips that are not exact. -/

namespace Sys2Proof.Machine

/-! ### Rounding is odd, monotone and bounded -/

/-- Changing the sign keeps the 63 lower bits of an encoding. -/
theorem B64.negate_ofSignMag (s : Bool) (m : Nat) : B64.negate (B64.ofSignMag s m) = B64.ofSignMag (!s) m := by
  have hsign : (0x8000000000000000 : B64) = BitVec.ofBool true ++ (0 : BitVec 63) := by decide
  have happ : (BitVec.ofBool s ++ BitVec.ofNat 63 m) ^^^ (BitVec.ofBool true ++ (0 : BitVec 63)) =
      (BitVec.ofBool s ^^^ BitVec.ofBool true) ++ (BitVec.ofNat 63 m ^^^ (0 : BitVec 63)) := BitVec.xor_append
  rw [B64.negate, B64.ofSignMag, hsign, happ, B64.ofSignMag]
  cases s <;> simp

/-- The rounding of `-e` is that of `e` with the other sign, of zero too if its sign changes (R12). -/
theorem B64.fl_neg (z : Bool) (e : ℚ) : B64.fl (!z) (-e) = B64.negate (B64.fl z e) := by
  have hsign : (if (-e).num = 0 then !z else decide ((-e).num < 0)) =
      !(if e.num = 0 then z else decide (e.num < 0)) := by
    rcases lt_trichotomy e 0 with h | h | h
    · simp [h, h.ne, h.le]
    · simp [h]
    · simp [h, h.ne', h.le]
  rw [B64.fl, B64.fl, B64.negate_ofSignMag, hsign, Rat.neg_num, Int.natAbs_neg, Rat.neg_den]

/-- The sign asked for a zero does not matter to any other number (R12). -/
theorem B64.fl_of_ne_zero (z z' : Bool) {e : ℚ} (he : e ≠ 0) : B64.fl z e = B64.fl z' e := by
  have hnum : e.num ≠ 0 := Rat.num_ne_zero.2 he
  rw [B64.fl, B64.fl, if_neg hnum, if_neg hnum]

/-- The value of a rounding does not depend on the sign asked for a zero (R12). -/
theorem B64.toRat_fl_congr (z z' : Bool) (e : ℚ) : B64.toRat (B64.fl z e) = B64.toRat (B64.fl z' e) := by
  rcases eq_or_ne e 0 with rfl | he
  · cases z <;> cases z' <;> decide +kernel
  · rw [B64.fl_of_ne_zero z z' he]

/-- Rounding is monotone (R12): were two roundings in the wrong order, each nearest to its own number, both numbers would be
the midpoint between them, and so be rounded alike. -/
theorem B64.toRat_fl_mono {z z' : Bool} {e e' : ℚ} (h : B64.isFinite (B64.fl z e) = true)
    (h' : B64.isFinite (B64.fl z' e') = true) (hle : e ≤ e') : B64.toRat (B64.fl z e) ≤ B64.toRat (B64.fl z' e') := by
  by_contra hlt
  rw [not_le] at hlt
  have hlow := sq_le_sq.2 (B64.fl_nearest h (B64.fl z' e'))
  have hhigh := sq_le_sq.2 (B64.fl_nearest h' (B64.fl z e))
  have hmid : B64.toRat (B64.fl z e) + B64.toRat (B64.fl z' e') ≤ 2 * e := by nlinarith
  have hmid' : 2 * e' ≤ B64.toRat (B64.fl z e) + B64.toRat (B64.fl z' e') := by nlinarith
  obtain rfl : e = e' := by linarith
  exact hlt.ne (B64.toRat_fl_congr z' z e)

/-- What is at most a power of two below the overflow threshold is rounded to a finite number, at most twice as large (R12). -/
theorem B64.fl_bounded (z : Bool) {e : ℚ} {n : Nat} (hn : n ≤ 1023) (he : |e| ≤ 2 ^ n) :
    B64.isFinite (B64.fl z e) = true ∧ |B64.toRat (B64.fl z e)| ≤ 2 ^ (n + 1) := by
  have hfin : B64.isFinite (B64.fl z e) = true := (B64.isFinite_fl_iff z e).2 (he.trans_lt (B64.two_pow_lt_threshold hn))
  refine ⟨hfin, (B64.abs_toRat_fl_le hfin).trans ?_⟩
  rw [pow_succ']
  linarith

/-! ### The operators on finite numbers -/

section
variable {x x' y : B64} (hx : B64.isFinite x = true) (hx' : B64.isFinite x' = true) (hy : B64.isFinite y = true)

section
include hx hy

/-- The product with the sign of a factor changed is the product with its sign changed, a zero too. -/
theorem B64.mul_negate_left : B64.mul (B64.negate x) y = B64.negate (B64.mul x y) := by
  rw [B64.mul_of_isFinite ((B64.isFinite_negate x).trans hx) hy, B64.mul_of_isFinite hx hy, ← B64.fl_neg,
    B64.toRat_negate, (B64.negate_fields x).1, neg_mul, Bool.not_bne]

/-- The quotient with the sign of the dividend changed is the quotient with its sign changed, a zero too. -/
theorem B64.div_negate_left (hz : B64.isZero y = false) : B64.div (B64.negate x) y = B64.negate (B64.div x y) := by
  rw [B64.div_of_isFinite ((B64.isFinite_negate x).trans hx) hy hz, B64.div_of_isFinite hx hy hz, ← B64.fl_neg,
    B64.toRat_negate, (B64.negate_fields x).1, neg_div, Bool.not_bne]

/-- The exponents of bounds on two factors give one on their product. -/
theorem B64.mul_bounded {m n : Nat} (hxm : |B64.toRat x| ≤ 2 ^ m) (hyn : |B64.toRat y| ≤ 2 ^ n) (hmn : m + n ≤ 1023) :
    B64.isFinite (B64.mul x y) = true ∧ |B64.toRat (B64.mul x y)| ≤ 2 ^ (m + n + 1) := by
  rw [B64.mul_of_isFinite hx hy]
  refine B64.fl_bounded _ hmn ?_
  rw [abs_mul, pow_add]
  exact mul_le_mul hxm hyn (abs_nonneg _) (by positivity)

/-- A bound on a dividend gives one on its quotient by a divisor of at least 1. -/
theorem B64.div_bounded {m : Nat} (hz : B64.isZero y = false) (hxm : |B64.toRat x| ≤ 2 ^ m) (hy1 : 1 ≤ B64.toRat y)
    (hm : m ≤ 1023) : B64.isFinite (B64.div x y) = true ∧ |B64.toRat (B64.div x y)| ≤ 2 ^ (m + 1) := by
  rw [B64.div_of_isFinite hx hy hz]
  refine B64.fl_bounded _ hm ?_
  rw [abs_div]
  exact (div_le_self (abs_nonneg _) (hy1.trans (le_abs_self _))).trans hxm

end

section
include hx hx' hy

/-- Multiplication by a number that is not negative is monotone. -/
theorem B64.toRat_mul_mono (h : B64.isFinite (B64.mul x y) = true) (h' : B64.isFinite (B64.mul x' y) = true)
    (hy0 : 0 ≤ B64.toRat y) (hle : B64.toRat x ≤ B64.toRat x') :
    B64.toRat (B64.mul x y) ≤ B64.toRat (B64.mul x' y) := by
  rw [B64.mul_of_isFinite hx hy] at h ⊢
  rw [B64.mul_of_isFinite hx' hy] at h' ⊢
  exact B64.toRat_fl_mono h h' (mul_le_mul_of_nonneg_right hle hy0)

/-- Division by a positive number is monotone. -/
theorem B64.toRat_div_mono (h : B64.isFinite (B64.div x y) = true) (h' : B64.isFinite (B64.div x' y) = true)
    (hz : B64.isZero y = false) (hy0 : 0 ≤ B64.toRat y) (hle : B64.toRat x ≤ B64.toRat x') :
    B64.toRat (B64.div x y) ≤ B64.toRat (B64.div x' y) := by
  rw [B64.div_of_isFinite hx hy hz] at h ⊢
  rw [B64.div_of_isFinite hx' hy hz] at h' ⊢
  exact B64.toRat_fl_mono h h' (div_le_div_of_nonneg_right hle hy0)

end

end

/-- The conversion of an integer other than zero is odd; zero has no negative conversion (R123). -/
theorem B64.ofInt_neg {k : Int} (hk : k ≠ 0) : B64.ofInt (-k) = B64.negate (B64.ofInt k) := by
  have hk' : -(k : ℚ) ≠ 0 := neg_ne_zero.2 (Int.cast_ne_zero.2 hk)
  rw [B64.ofInt, B64.ofInt, ← B64.fl_neg, Int.cast_neg, B64.fl_of_ne_zero _ _ hk']

/-! ### DEC_WHEEL as a function of its exact integer `k` (R123) -/

/-- `q` of R123: the quotient of `k` and `TICK_DEN`. -/
def scaledQuotient (k : Int) : B64 := B64.div (B64.ofInt k) (B64.ofInt 1560)

/-- `ω` of R123: the wheel speed for `k`. -/
def scaledSpeed (k : Int) : B64 := B64.mul (scaledQuotient k) Config.twoPi

/-- DEC_WHEEL in binary64 is the wheel speed for the scaled field (R123). -/
theorem decWheel_b64 (v : Nat) : decWheel arithB64 v = scaledSpeed (((v : Int) - 500) * 100) := rfl

/-- `TICK_DEN` in binary64. -/
theorem tickDen_b64 : B64.isFinite (B64.ofInt 1560) = true ∧ B64.isZero (B64.ofInt 1560) = false ∧
    B64.toRat (B64.ofInt 1560) = 1560 := by decide +kernel

/-- `TWO_PI` is finite, not negative and at most 8. -/
theorem twoPi_b64 : B64.isFinite Config.twoPi = true ∧ 0 ≤ B64.toRat Config.twoPi ∧ |B64.toRat Config.twoPi| ≤ 2 ^ 3 := by
  decide +kernel

section
variable {k : Int} (hk : |k| ≤ 2 ^ 23)
include hk

/-- `k` is converted to a finite number. -/
theorem ofInt_bounded : B64.isFinite (B64.ofInt k) = true ∧ |B64.toRat (B64.ofInt k)| ≤ 2 ^ 24 := by
  have hk' : |(k : ℚ)| ≤ 2 ^ 23 := by exact_mod_cast hk
  exact B64.fl_bounded (n := 23) false (by norm_num) hk'

/-- The quotient is finite. -/
theorem scaledQuotient_bounded : B64.isFinite (scaledQuotient k) = true ∧ |B64.toRat (scaledQuotient k)| ≤ 2 ^ 25 := by
  obtain ⟨hint, hbound⟩ := ofInt_bounded hk
  obtain ⟨hden, hnz, hval⟩ := tickDen_b64
  exact B64.div_bounded hint hden hnz hbound (by rw [hval]; norm_num) (by norm_num)

/-- The wheel speed is finite. -/
theorem scaledSpeed_isFinite : B64.isFinite (scaledSpeed k) = true := by
  obtain ⟨hquot, hbound⟩ := scaledQuotient_bounded hk
  obtain ⟨hpi, -, hpi8⟩ := twoPi_b64
  exact (B64.mul_bounded hquot hpi hbound hpi8 (by norm_num)).1

/-- The wheel speed is odd, because the conversion, the division and the multiplication are. -/
theorem scaledSpeed_neg (hk0 : k ≠ 0) : scaledSpeed (-k) = B64.negate (scaledSpeed k) := by
  obtain ⟨hden, hnz, -⟩ := tickDen_b64
  have hquot : scaledQuotient (-k) = B64.negate (scaledQuotient k) := by
    rw [scaledQuotient, B64.ofInt_neg hk0, B64.div_negate_left (ofInt_bounded hk).1 hden hnz, scaledQuotient]
  rw [scaledSpeed, hquot, B64.mul_negate_left (scaledQuotient_bounded hk).1 twoPi_b64.1, scaledSpeed]

/-- The wheel speed is monotone, because the conversion, the division and the multiplication are. -/
theorem scaledSpeed_mono {k' : Int} (hk' : |k'| ≤ 2 ^ 23) (hle : k ≤ k') :
    B64.toRat (scaledSpeed k) ≤ B64.toRat (scaledSpeed k') := by
  obtain ⟨hden, hnz, hval⟩ := tickDen_b64
  obtain ⟨hpi, hpi0, -⟩ := twoPi_b64
  obtain ⟨hint, -⟩ := ofInt_bounded hk
  obtain ⟨hint', -⟩ := ofInt_bounded hk'
  obtain ⟨hquot, -⟩ := scaledQuotient_bounded hk
  obtain ⟨hquot', -⟩ := scaledQuotient_bounded hk'
  have hle₁ : B64.toRat (B64.ofInt k) ≤ B64.toRat (B64.ofInt k') :=
    B64.toRat_fl_mono hint hint' (Int.cast_le.2 hle)
  have hle₂ : B64.toRat (scaledQuotient k) ≤ B64.toRat (scaledQuotient k') :=
    B64.toRat_div_mono hint hint' hden hquot hquot' hnz (by rw [hval]; norm_num) hle₁
  exact B64.toRat_mul_mono hquot hquot' hpi (scaledSpeed_isFinite hk) (scaledSpeed_isFinite hk') hpi0 hle₂

end

/-- The scaled field of a 16-bit field has at most 23 bits and its sign (R123: -50000 .. 6503500). -/
theorem abs_scaledField_le {v : Nat} (hv : v < 65536) : |((v : Int) - 500) * 100| ≤ 2 ^ 23 := by
  rw [abs_le]
  omega

/-! ### The statements -/

/-- Settles O28: the scaled field of `500 + j` is the negation of that of `500 - j`, and the wheel speed is odd. -/
theorem wheelSpeedOddSymmetric : Obligations.WheelSpeedOddSymmetric := by
  refine ⟨by decide +kernel, fun j hpos hle => ?_⟩
  have hk := abs_scaledField_le (v := 500 - j) (by omega)
  have hneg : (((500 + j : Nat) : Int) - 500) * 100 = -((((500 - j : Nat) : Int) - 500) * 100) := by omega
  rw [decWheel_b64, decWheel_b64, hneg, scaledSpeed_neg hk (by omega)]

/-- Settles O29: the scaled field of a 16-bit field grows with the field, and the wheel speed is finite and monotone. -/
theorem wheelSpeedFiniteMonotone : Obligations.WheelSpeedFiniteMonotone := by
  intro v v' hle hv'
  have hk := abs_scaledField_le (hle.trans_lt hv')
  have hk' := abs_scaledField_le hv'
  rw [decWheel_b64, decWheel_b64]
  exact ⟨scaledSpeed_isFinite hk, scaledSpeed_mono hk hk' (by omega)⟩

/-- Settles O43: each conversion evaluated once, the wheel speed of `v` = 501 being that of R123's example (R127, R143, KN-8). -/
theorem binaryRoundTripsNotExact : Obligations.BinaryRoundTripsNotExact := by
  have hdec : decWheel arithB64 501 = 0x3FD9C6F4A5323B60 := by decide +kernel
  have henc : encTicks arithB64 0x3FD9C6F4A5323B60 = .ok 0x3FEFFFFFFFFFFFFF := by decide +kernel
  exact ⟨hdec ▸ henc, by decide +kernel, by decide +kernel⟩

end Sys2Proof.Machine

/-! PROOFS. The solvers (42_kinematics.md R141, R143): where a difference cancels exactly in binary64, and the round trip over
the reals. -/

namespace Sys2Proof.Machine

/-! ### Exact cancellation in binary64 -/

/-- The rounding of zero is the zero with the sign asked for (R12). -/
theorem B64.fl_zero (z : Bool) : B64.fl z 0 = B64.zero z := by
  simp [B64.fl, B64.roundNat, B64.zero]

/-- A finite number less itself is +0.0, whatever its sign (R12). -/
theorem B64.sub_self_eq_posZero {x : B64} (hx : B64.isFinite x = true) : B64.sub x x = B64.zero false := by
  rw [B64.sub_of_isFinite hx hx, sub_self, Bool.and_not_self, B64.fl_zero]

/-- +0.0 over a finite divisor is the zero with the divisor's sign (R12, R141). -/
theorem B64.posZero_div {y : B64} (hy : B64.isFinite y = true) (hz : B64.isZero y = false) :
    B64.div (B64.zero false) y = B64.zero (B64.neg y) := by
  have hneg : B64.neg (B64.zero false) = false := by decide
  have hval : B64.toRat (B64.zero false) = 0 := by decide +kernel
  rw [B64.div_of_isFinite (by decide) hy hz, hneg, hval, zero_div, Bool.false_bne, B64.fl_zero]

/-! ### The statements -/

/-- Settles O32: `VR - VL` cancels to +0.0, and its quotient by `L` has the sign of `L`. -/
theorem equalWheelSpeedsGiveZeroYaw : Obligations.EqualWheelSpeedsGiveZeroYaw := by
  intro w r l vx vyaw h
  obtain ⟨⟨-, -, -, hl⟩, hnz, ⟨hv, -, -, -⟩, -, rfl⟩ := (kinFwd_ok_iff arithB64 _ _ _ _ _ _).1 h
  have hcancel : B64.sub (B64.mul w r) (B64.mul w r) = B64.zero false := B64.sub_self_eq_posZero hv
  calc B64.div (B64.sub (B64.mul w r) (B64.mul w r)) l
      = B64.div (B64.zero false) l := by rw [hcancel]
    _ = B64.zero (B64.neg l) := B64.posZero_div hl hnz

/-- Settles O33: `VL` is `-VR` bit for bit, so `VR + VL` cancels to +0.0, and half of it is +0.0. -/
theorem oppositeWheelSpeedsGiveZeroLinear : Obligations.OppositeWheelSpeedsGiveZeroLinear := by
  intro w r l vx vyaw h
  obtain ⟨⟨-, hw, hr, -⟩, -, ⟨-, hv, -, -⟩, rfl, -⟩ := (kinFwd_ok_iff arithB64 _ _ _ _ _ _).1 h
  have hcancel : B64.add (B64.mul w r) (B64.mul (B64.negate w) r) = B64.zero false := by
    rw [B64.mul_negate_left hw hr]
    exact B64.sub_self_eq_posZero hv
  calc B64.div (B64.add (B64.mul w r) (B64.mul (B64.negate w) r)) (B64.ofInt 2)
      = B64.div (B64.zero false) (B64.ofInt 2) := by rw [hcancel]
    _ = 0 := by decide +kernel

/-- Settles O44: the half-sum of `VR` = Vx + (L/2)·Vyaw and `VL` = Vx − (L/2)·Vyaw is Vx, and their difference over L is
Vyaw (R143). -/
theorem realKinematicsRoundTrip : Obligations.RealKinematicsRoundTrip := by
  intro vx vyaw r l hr hl
  have hvr : (vx + l / 2 * vyaw) / r * r = vx + l / 2 * vyaw := div_mul_cancel₀ _ hr
  have hvl : (vx - l / 2 * vyaw) / r * r = vx - l / 2 * vyaw := div_mul_cancel₀ _ hr
  have hsum : (vx + l / 2 * vyaw + (vx - l / 2 * vyaw)) / 2 = vx := by ring
  have hdiff : (vx + l / 2 * vyaw - (vx - l / 2 * vyaw)) / l = vyaw := by field_simp; ring
  simp only [PiRat.ofRat_eq]
  refine ⟨_, _, (kinInv_real vx vyaw r l).trans (if_neg hr), ?_⟩
  rw [kinFwd_real, if_neg hl, hvr, hvl, hsum, hdiff]

end Sys2Proof.Machine

/-! PROOFS. The motor command encoder in binary64 (43_command_encoder.md R162 to R169): the sign, the absolute value, the
integer part and the nearest integer of a number as statements about its value, what the stages make of a tick value, and the
zero command, which stays a zero from stage to stage. -/

namespace Sys2Proof.Machine

/-! ### Zeros and signs -/

/-- The zeros are the numbers of value zero. -/
theorem B64.toRat_eq_zero_iff (x : B64) : B64.toRat x = 0 ↔ B64.isZero x = true := by
  rw [← abs_eq_zero, B64.abs_toRat]
  constructor
  · intro h
    by_contra hz
    exact (B64.magnitude_pos (Bool.not_eq_true _ ▸ hz)).ne' h
  · intro hz
    rw [B64.magnitude_eq, (B64.isZero_iff x).1 hz]
    simp [B64.magValue]

/-- A zero is finite. -/
theorem B64.isFinite_of_isZero {x : B64} (h : B64.isZero x = true) : B64.isFinite x = true := by
  rw [B64.isFinite_iff, (B64.isZero_iff x).1 h]
  norm_num

/-- The rounding of zero is a zero (R12). -/
theorem B64.isZero_fl_zero (z : Bool) : B64.isZero (B64.fl z 0) = true := by
  rw [B64.fl_zero]
  cases z <;> decide

/-- On finite numbers the comparison with zero is that of the value, so both zeros pass it (R12, R162). -/
theorem B64.geZero_iff {x : B64} (h : B64.isFinite x = true) : B64.geZero x = true ↔ 0 ≤ B64.toRat x := by
  cases hz : B64.isZero x with
  | true =>
    have hval := (B64.toRat_eq_zero_iff x).2 hz
    simp [B64.geZero, B64.isNaN_of_isFinite h, hz, hval]
  | false =>
    have hsign := B64.toRat_neg_iff hz
    rw [← not_lt, hsign]
    simp [B64.geZero, B64.isNaN_of_isFinite h, hz]

/-! ### Operations with a zero operand, and a divisor of at least 1 -/

section
variable {x y : B64}

/-- A sum of zeros is a zero. -/
theorem B64.isZero_add (hx : B64.isZero x = true) (hy : B64.isZero y = true) : B64.isZero (B64.add x y) = true := by
  rw [B64.add_of_isFinite (B64.isFinite_of_isZero hx) (B64.isFinite_of_isZero hy), (B64.toRat_eq_zero_iff x).2 hx,
    (B64.toRat_eq_zero_iff y).2 hy, add_zero]
  exact B64.isZero_fl_zero _

/-- A difference of zeros is a zero. -/
theorem B64.isZero_sub (hx : B64.isZero x = true) (hy : B64.isZero y = true) : B64.isZero (B64.sub x y) = true := by
  rw [B64.sub_of_isFinite (B64.isFinite_of_isZero hx) (B64.isFinite_of_isZero hy), (B64.toRat_eq_zero_iff x).2 hx,
    (B64.toRat_eq_zero_iff y).2 hy, sub_zero]
  exact B64.isZero_fl_zero _

/-- A finite number times a zero is a zero. -/
theorem B64.isZero_mul_right (hx : B64.isFinite x = true) (hy : B64.isZero y = true) :
    B64.isZero (B64.mul x y) = true := by
  rw [B64.mul_of_isFinite hx (B64.isFinite_of_isZero hy), (B64.toRat_eq_zero_iff y).2 hy, mul_zero]
  exact B64.isZero_fl_zero _

/-- A zero times a finite number is a zero. -/
theorem B64.isZero_mul_left (hx : B64.isZero x = true) (hy : B64.isFinite y = true) :
    B64.isZero (B64.mul x y) = true := by
  rw [B64.mul_of_isFinite (B64.isFinite_of_isZero hx) hy, (B64.toRat_eq_zero_iff x).2 hx, zero_mul]
  exact B64.isZero_fl_zero _

/-- A zero over a finite divisor other than zero is a zero. -/
theorem B64.isZero_div (hx : B64.isZero x = true) (hy : B64.isFinite y = true) (hnz : B64.isZero y = false) :
    B64.isZero (B64.div x y) = true := by
  rw [B64.div_of_isFinite (B64.isFinite_of_isZero hx) hy hnz, (B64.toRat_eq_zero_iff x).2 hx, zero_div]
  exact B64.isZero_fl_zero _

/-- Division by a number of at least 1 does not overflow. -/
theorem B64.isFinite_div_of_one_le (hx : B64.isFinite x = true) (hy : B64.isFinite y = true) (h1 : 1 ≤ B64.toRat y) :
    B64.isFinite (B64.div x y) = true := by
  have hnz : B64.isZero y = false := by
    rw [← Bool.not_eq_true, ← B64.toRat_eq_zero_iff]
    linarith
  rw [B64.div_of_isFinite hx hy hnz, B64.isFinite_fl_iff, abs_div]
  exact (div_le_self (abs_nonneg _) (h1.trans (le_abs_self _))).trans_lt (B64.abs_toRat_lt hx)

end

/-! ### Absolute value, integer part, nearest integer -/

/-- `|x|` is the 63 lower bits of `x`. -/
theorem B64.toNat_abs (x : B64) : (B64.abs x).toNat = x.toNat % 2 ^ 63 := by
  rw [B64.abs, BitVec.toNat_and]
  exact Nat.and_two_pow_sub_one_eq_mod x.toNat 63

/-- `|x|` has the absolute value of `x` (R12). -/
theorem B64.toRat_abs (x : B64) : B64.toRat (B64.abs x) = |B64.toRat x| := by
  have hlt : x.toNat % 2 ^ 63 < 2 ^ 63 := Nat.mod_lt _ (by norm_num)
  have hneg : B64.neg (B64.abs x) = false := by
    rw [B64.neg, BitVec.msb_eq_false_iff_two_mul_lt, B64.toNat_abs]
    omega
  have hmag : B64.magnitude (B64.abs x) = B64.magnitude x := by
    rw [B64.magnitude_eq, B64.magnitude_eq, B64.toNat_abs, Nat.mod_mod]
  rw [B64.abs_toRat, B64.toRat, hneg, hmag]
  rfl

/-- Clearing the sign keeps finiteness. -/
theorem B64.isFinite_abs {x : B64} (h : B64.isFinite x = true) : B64.isFinite (B64.abs x) = true := by
  rw [B64.isFinite_iff] at h ⊢
  rwa [B64.toNat_abs, Nat.mod_mod]

/-- The absolute value of either zero is +0.0. -/
theorem B64.abs_of_isZero {x : B64} (h : B64.isZero x = true) : B64.abs x = 0 := by
  apply BitVec.eq_of_toNat_eq
  rw [B64.toNat_abs, (B64.isZero_iff x).1 h]
  rfl

/-- The integer part is the floor of the value. -/
theorem B64.floor_eq (x : B64) : B64.floor x = ⌊B64.toRat x⌋₊ :=
  Int.floor_toNat (B64.toRat x)

/-- The nearest integer of a number that is not negative, even where it is exactly half away (R164). -/
theorem B64.nearestEven_spec {x : B64} (h : 0 ≤ B64.toRat x) :
    |(B64.nearestEven x : ℚ) - B64.toRat x| ≤ 1 / 2 ∧
      (|(B64.nearestEven x : ℚ) - B64.toRat x| = 1 / 2 → B64.nearestEven x % 2 = 0) := by
  have hnum : (((B64.toRat x).num.toNat : Nat) : ℚ) = (B64.toRat x).num := by
    exact_mod_cast Int.toNat_of_nonneg (Rat.num_nonneg.2 h)
  have hval : (((B64.toRat x).num.toNat : Nat) : ℚ) / (B64.toRat x).den = B64.toRat x := by
    rw [hnum, Rat.num_div_den]
  have hspec := B64.divRne_spec (B64.toRat x).num.toNat (B64.toRat x).den (B64.toRat x).den_pos
  rwa [hval] at hspec

/-- The nearest integer does not pass an integer bound: the next integer is more than half away. -/
theorem B64.nearestEven_le {x : B64} {n : Nat} (h : 0 ≤ B64.toRat x) (hn : B64.toRat x ≤ n) :
    B64.nearestEven x ≤ n := by
  have hnear := (abs_le.1 (B64.nearestEven_spec h).1).2
  have hlt : (B64.nearestEven x : ℚ) < n + 1 := by linarith
  exact Nat.lt_succ_iff.1 (by exact_mod_cast hlt)

/-- The nearest integer of an integer is that integer. -/
theorem B64.nearestEven_of_natCast {x : B64} {n : Nat} (h : B64.toRat x = n) : B64.nearestEven x = n := by
  have h0 : 0 ≤ B64.toRat x := h ▸ n.cast_nonneg
  have hnear := (abs_le.1 (B64.nearestEven_spec h0).1).1
  have hlt : (n : ℚ) < B64.nearestEven x + 1 := by linarith
  exact (B64.nearestEven_le h0 h.le).antisymm (Nat.lt_succ_iff.1 (by exact_mod_cast hlt))

/-! ### The stages of the encoder -/

/-- What ENC_TICKS answers is finite (R161). -/
theorem encTicks_isFinite {α : Type} {A : Arith α} {w t : α} (h : encTicks A w = .ok t) : A.isFinite t = true := by
  unfold encTicks at h
  dsimp only at h
  split at h
  · rename_i hf
    injection h with h
    exact h ▸ hf
  · cases h

/-- ENC_DIR in binary64 is the sign of the value (R162). -/
theorem encDir_b64 {t : B64} (h : B64.isFinite t = true) :
    encDir arithB64 t = if 0 ≤ B64.toRat t then (1 : BitVec 1) else 0 := by
  simp only [encDir, ← B64.geZero_iff h]
  rfl

/-- `MAG_MAX` in binary64. -/
theorem magMax_b64 : B64.isFinite (B64.ofInt 255) = true ∧ B64.toRat (B64.ofInt 255) = 255 := by decide +kernel

/-- ENC_CLAMP in binary64: `|t|` up to 255, from there on 255 (R163). -/
theorem encClamp_b64 (t : B64) :
    encClamp arithB64 t = if |B64.toRat t| ≤ 255 then B64.abs t else B64.ofInt 255 := by
  show B64.min (B64.abs t) (B64.ofInt 255) = _
  rw [B64.min, B64.toRat_abs, magMax_b64.2]

/-- The clamped value of a finite number is finite. -/
theorem isFinite_encClamp {t : B64} (h : B64.isFinite t = true) : B64.isFinite (encClamp arithB64 t) = true := by
  rw [encClamp_b64]
  split
  · exact B64.isFinite_abs h
  · exact magMax_b64.1

/-- The clamped value is the smaller of `|t|` and 255 (R163). -/
theorem toRat_encClamp (t : B64) : B64.toRat (encClamp arithB64 t) = min |B64.toRat t| 255 := by
  rw [encClamp_b64]
  split
  · rw [B64.toRat_abs, min_eq_left ‹_›]
  · rw [magMax_b64.2, min_eq_right (le_of_not_ge ‹_›)]

/-- The clamped value of either zero is +0.0 (R163). -/
theorem encClamp_of_isZero {t : B64} (h : B64.isZero t = true) : encClamp arithB64 t = 0 := by
  have hval := (B64.toRat_eq_zero_iff t).2 h
  rw [encClamp_b64, if_pos (by rw [hval]; norm_num), B64.abs_of_isZero h]

/-- The clamped value lies in [0, 255] (R163). -/
theorem toRat_encClamp_mem (t : B64) :
    0 ≤ B64.toRat (encClamp arithB64 t) ∧ B64.toRat (encClamp arithB64 t) ≤ 255 := by
  rw [toRat_encClamp]
  exact ⟨le_min (abs_nonneg _) (by norm_num), min_le_right _ _⟩

/-- The integer part of a clamped value is at most 255 (R169). -/
theorem floor_encClamp_le (t : B64) : B64.floor (encClamp arithB64 t) ≤ 255 := by
  rw [B64.floor_eq]
  exact Nat.floor_le_of_le (toRat_encClamp_mem t).2

/-- The nearest integer of a clamped value is at most 255 (R169). -/
theorem nearestEven_encClamp_le (t : B64) : B64.nearestEven (encClamp arithB64 t) ≤ 255 :=
  B64.nearestEven_le (toRat_encClamp_mem t).1 (toRat_encClamp_mem t).2

/-- ENC_QUANT in binary64 under TRUNC (R164). -/
theorem encQuant_b64_trunc (m : B64) : encQuant arithB64 .trunc m = BitVec.ofNat 8 (B64.floor m) := rfl

/-- ENC_QUANT in binary64 under RNE (R164). -/
theorem encQuant_b64_rne (m : B64) : encQuant arithB64 .rne m = BitVec.ofNat 8 (B64.nearestEven m) := rfl

/-- TRUNC of a clamped value is its integer part, cut to a byte without loss (R164). -/
theorem toNat_encQuant_trunc (t : B64) :
    (encQuant arithB64 .trunc (encClamp arithB64 t)).toNat = B64.floor (encClamp arithB64 t) := by
  rw [encQuant_b64_trunc, BitVec.toNat_ofNat, Nat.mod_eq_of_lt ((floor_encClamp_le t).trans_lt (by norm_num))]

/-- RNE of a clamped value is its nearest integer, cut to a byte without loss (R164). -/
theorem toNat_encQuant_rne (t : B64) :
    (encQuant arithB64 .rne (encClamp arithB64 t)).toNat = B64.nearestEven (encClamp arithB64 t) := by
  rw [encQuant_b64_rne, BitVec.toNat_ofNat, Nat.mod_eq_of_lt ((nearestEven_encClamp_le t).trans_lt (by norm_num))]

/-- Either quantisation keeps an integer (R164). -/
theorem encQuant_of_natCast (q : MagQuant) {m : B64} {n : Nat} (h : B64.toRat m = n) :
    encQuant arithB64 q m = BitVec.ofNat 8 n := by
  cases q with
  | trunc => rw [encQuant_b64_trunc, B64.floor_eq, h, Nat.floor_natCast]
  | rne => rw [encQuant_b64_rne, B64.nearestEven_of_natCast h]

/-- From 255 ticks on, in either direction, the magnitude is 255 (R169). -/
theorem encQuant_encClamp_saturated (q : MagQuant) {t : B64} (h : 255 ≤ |B64.toRat t|) :
    encQuant arithB64 q (encClamp arithB64 t) = 255 := by
  refine encQuant_of_natCast q (n := 255) ?_
  rw [toRat_encClamp, min_eq_right h]
  rfl

/-! ### The zero command (R168) -/

/-- A wheel speed of either zero is a tick value of either zero: none of the three operations leaves zero. -/
theorem encTicks_of_isZero {w : B64} (h : B64.isZero w = true) :
    ∃ t, encTicks arithB64 w = .ok t ∧ B64.isZero t = true := by
  have htwoPi : B64.isZero Config.twoPi = false := by decide
  have hnum : B64.isFinite (B64.ofInt 100) = true ∧ B64.isZero (B64.ofInt 100) = false := by decide +kernel
  have hticks := B64.isZero_div (B64.isZero_mul_left (B64.isZero_div h twoPi_b64.1 htwoPi) tickDen_b64.1) hnum.1 hnum.2
  exact ⟨_, if_pos (B64.isFinite_of_isZero hticks), hticks⟩

/-- A wheel speed of either zero is encoded as magnitude 0, forward. -/
theorem encWheel_of_isZero (q : MagQuant) {w : B64} (h : B64.isZero w = true) :
    encWheel arithB64 q w = .ok (0, 1) := by
  obtain ⟨t, ht, hz⟩ := encTicks_of_isZero h
  refine (encWheel_ok_iff arithB64 q w 0 1).2 ⟨t, ht, ?_, ?_⟩
  · rw [encClamp_of_isZero hz, encQuant_of_natCast q (n := 0) (by decide +kernel)]
    rfl
  · rw [encDir_b64 (B64.isFinite_of_isZero hz), if_pos ((B64.toRat_eq_zero_iff t).2 hz).ge]

/-- A zero command gives wheel speeds of either zero (R142): `(L/2)·Vyaw` is a zero because `L/2` is finite. -/
theorem kinInv_of_isZero {vx vyaw r l : B64} (hvx : B64.isZero vx = true) (hvyaw : B64.isZero vyaw = true)
    (hr : B64.isFinite r = true) (hrz : B64.isZero r = false) (hl : B64.isFinite l = true) :
    ∃ wl wr, kinInv arithB64 vx vyaw r l = .ok (wl, wr) ∧ B64.isZero wl = true ∧ B64.isZero wr = true := by
  have htwo : B64.isFinite (B64.ofInt 2) = true ∧ 1 ≤ B64.toRat (B64.ofInt 2) := by decide +kernel
  have hhalf := B64.isFinite_div_of_one_le hl htwo.1 htwo.2
  have hturn := B64.isZero_mul_right hhalf hvyaw
  have hwl := B64.isZero_div (B64.isZero_sub hvx hturn) hr hrz
  have hwr := B64.isZero_div (B64.isZero_add hvx hturn) hr hrz
  refine ⟨_, _, (kinInv_ok_iff arithB64 _ _ _ _ _ _).2 ⟨?_, hrz, ?_, rfl, rfl⟩, hwl, hwr⟩
  · exact ⟨B64.isFinite_of_isZero hvx, B64.isFinite_of_isZero hvyaw, hr, hl⟩
  · exact ⟨hhalf, B64.isFinite_of_isZero hturn, B64.isFinite_of_isZero hwr, B64.isFinite_of_isZero hwl⟩

/-- ENCODE of a zero command is `(0, 1, 0, 1)`. -/
theorem encodeCommand_of_isZero (q : MagQuant) {vx vyaw r l : B64} (hvx : B64.isZero vx = true)
    (hvyaw : B64.isZero vyaw = true) (hr : B64.isFinite r = true) (hrz : B64.isZero r = false)
    (hl : B64.isFinite l = true) : encodeCommand arithB64 q vx vyaw r l = .ok ⟨0, 1, 0, 1⟩ := by
  obtain ⟨wl, wr, hkin, hwl, hwr⟩ := kinInv_of_isZero hvx hvyaw hr hrz hl
  exact (encodeCommand_ok_iff arithB64 q _ _ _ _ _).2
    ⟨wl, wr, hkin, encWheel_of_isZero q hwl, encWheel_of_isZero q hwr⟩

/-! ### The statements -/

/-- Settles O34: ENC_DIR compares the value with zero, ENC_WHEEL's tick value is finite, and the integer part of a value below 1
is 0. -/
theorem directionIsSignOfTicks : Obligations.DirectionIsSignOfTicks := by
  refine ⟨fun t ht => encDir_b64 ht, fun q w mag dir h => ?_, fun t ht hlow hneg => ⟨?_, ?_⟩⟩
  · obtain ⟨t, hticks, -, rfl⟩ := (encWheel_ok_iff arithB64 q w mag dir).1 h
    exact ⟨t, hticks, encDir_b64 (encTicks_isFinite hticks)⟩
  · rw [encDir_b64 ht, if_neg hneg.not_ge]
  · have hlt : B64.toRat (encClamp arithB64 t) < 1 := by
      rw [toRat_encClamp, min_lt_iff, abs_of_neg hneg]
      left
      linarith
    apply BitVec.eq_of_toNat_eq
    rw [toNat_encQuant_trunc, B64.floor_eq, Nat.floor_eq_zero.2 hlt]
    rfl

/-- Settles O35: both quantisations keep the integer 255, and the direction is that of the unclamped value. -/
theorem saturationKeepsDirection : Obligations.SaturationKeepsDirection := by
  intro q t ht
  refine ⟨fun h => ⟨?_, ?_⟩, fun h => ⟨?_, ?_⟩, floor_encClamp_le t, nearestEven_encClamp_le t⟩
  · exact encQuant_encClamp_saturated q (h.trans (le_abs_self _))
  · rw [encDir_b64 ht, if_pos (by linarith)]
  · exact encQuant_encClamp_saturated q ((le_neg.2 h).trans (neg_le_abs _))
  · rw [encDir_b64 ht, if_neg (by linarith)]

/-- Settles O36: 255 is a binary64 number, so the minimum is not rounded. -/
theorem clampedMagnitudeIsMinimum : Obligations.ClampedMagnitudeIsMinimum :=
  fun t ht => ⟨isFinite_encClamp ht, toRat_encClamp t, encClamp_of_isZero⟩

/-- Settles O37: the clamped value is not negative, and its quantised value fits a byte. -/
theorem quantisedMagnitudeOfClampedTicks : Obligations.QuantisedMagnitudeOfClampedTicks := by
  intro t _ m trunc rne
  have hm : 0 ≤ m := (toRat_encClamp_mem t).1
  have htrunc : trunc = ⌊m⌋₊ := (toNat_encQuant_trunc t).trans (B64.floor_eq _)
  have hrne : rne = B64.nearestEven (encClamp arithB64 t) := toNat_encQuant_rne t
  rw [htrunc, hrne]
  exact ⟨⟨Nat.floor_le hm, Nat.lt_floor_add_one m⟩, B64.nearestEven_spec hm⟩

/-- Settles O40: ENCODE succeeds with `(0, 1, 0, 1)`, which leaves one of the two cases of a CMD_TICK's rule. -/
theorem keepAliveSendsZeroFrame : Obligations.KeepAliveSendsZeroFrame := by
  intro s hm hn hvx hvyaw hl hr hrz
  have henc : encodeRegisters s = .ok ⟨0, 1, 0, 1⟩ := by
    simp only [encodeRegisters, hn]
    exact encodeCommand_of_isZero s.par.magQuant hvx hvyaw hr hrz hl
  rw [exec_cmdTick_of_run hm, cmdTickRule_of_ok henc]
  rfl

end Sys2Proof.Machine

/-! PROOFS. The events (44_events.md): the step that runs a word, the outcome of each tick in binary64 with the arithmetic
written out, and what the ticks read (R189, R191). -/

namespace Sys2Proof.Machine

/-! ### The step that runs a word -/

/-- The next input word, if the decoder reads it, is performed on the state without it (R180). -/
theorem step_of_decode {s : State} {w : InputWord} {rest : List Input} {i : Instr} (hin : s.input = .word w :: rest)
    (hdec : decode w = .ok i) : step s = exec i { s with input := rest } := by
  have hfetch : s.fetch = some (.word w, { s with input := rest }) := by rw [State.fetch, hin]
  simp only [step, hfetch, hdec]

/-- A table word that the decoder reads (R79; log entry 9). -/
theorem decodeTableWord_eq_some_iff {nbits w : Nat} {i : Instr} :
    decodeTableWord nbits w = some i ↔ decode (tableWord nbits w) = .ok i := by
  unfold decodeTableWord
  cases decode (tableWord nbits w) <;> simp

/-! ### The decoder in binary64 (R123, R124) -/

/-- The wheel speed of a 16-bit field is finite (R123). -/
theorem isFinite_wheelSpeed (v : BitVec 16) : B64.isFinite (wheelSpeed v.toNat) = true :=
  scaledSpeed_isFinite (abs_scaledField_le v.isLt)

/-- The conversion of an integer below `2 ^ 53` is exact: at the quantum of its rounding it is a whole number of quanta
(R12). -/
theorem B64.toRat_ofInt {k : Int} (hk : |k| < 2 ^ 53) :
    B64.isFinite (B64.ofInt k) = true ∧ B64.toRat (B64.ofInt k) = k := by
  have hk' : |(k : ℚ)| < 2 ^ 53 := by exact_mod_cast hk
  have hfin : B64.isFinite (B64.ofInt k) = true := (B64.fl_bounded (n := 53) false (by norm_num) hk'.le).1
  refine ⟨hfin, ?_⟩
  obtain ⟨q, M, hr, hval, -⟩ := B64.fl_of_isFinite hfin
  have hq : q ≤ 0 := by
    rcases hr.normal with h | h
    · omega
    · have hlt : (2 : ℚ) ^ q < (2 : ℚ) ^ (1 : Int) := by
        rw [zpow_one]
        linarith
      have := (zpow_lt_zpow_iff_right₀ (by norm_num : (1 : ℚ) < 2)).1 hlt
      omega
  obtain ⟨d, hd⟩ := Int.eq_ofNat_of_zero_le (neg_nonneg.2 hq)
  have hgrid : ((k * 2 ^ d : Int) : ℚ) * (2 : ℚ) ^ q = k := by
    rw [show q = -(d : Int) by omega, zpow_neg, zpow_natCast, Int.cast_mul, Int.cast_pow, Int.cast_ofNat]
    exact mul_inv_cancel_right₀ (by positivity) _
  have hnear := hr.nearest_quanta (k * 2 ^ d)
  rw [hgrid, sub_self, abs_zero, ← hval] at hnear
  exact sub_eq_zero.1 (abs_nonpos_iff.1 hnear)

/-- DEC_VOLT in binary64 rounds the exact quotient once: the field and the divisor are converted exactly (R124). -/
theorem decVolt_b64 {b : Nat} (hb : b < 2 ^ 16) : decVolt arithB64 b = B64.fl false ((b : ℚ) / 100) := by
  rcases Nat.eq_zero_or_pos b with rfl | hpos
  · decide +kernel
  · obtain ⟨hfin, hval⟩ := B64.toRat_ofInt (k := b) (by rw [Nat.abs_cast]; exact_mod_cast hb.trans (by norm_num))
    obtain ⟨hfin', hval'⟩ := B64.toRat_ofInt (k := 100) (by norm_num)
    have hnz : B64.isZero (B64.ofInt 100) = false := by decide +kernel
    have hquot : (b : ℚ) / 100 ≠ 0 := div_ne_zero (Nat.cast_ne_zero.2 hpos.ne') (by norm_num)
    show B64.div (B64.ofInt b) (B64.ofInt 100) = _
    rw [B64.div_of_isFinite hfin hfin' hnz, hval, hval', Int.cast_natCast, Int.cast_ofNat]
    exact B64.fl_of_ne_zero _ _ hquot

/-! ### The solvers, their checks in pseudocode order (R141, R142, R203) -/

section
variable {α : Type} (A : Arith α)

/-- KIN_FWD (R141). -/
theorem kinFwd_eq_ite (wl wr r l : α) :
    let vl := A.mul wl r
    let vr := A.mul wr r
    let vx := A.div (A.add vr vl) (A.ofInt 2)
    let vyaw := A.div (A.sub vr vl) l
    kinFwd A wl wr r l =
      if ¬(A.isFinite wl = true ∧ A.isFinite wr = true ∧ A.isFinite r = true ∧ A.isFinite l = true) then
        .error .nonFinite
      else if A.isZero l = true then .error .divZero
      else if A.isFinite vl = true ∧ A.isFinite vr = true ∧ A.isFinite vx = true ∧ A.isFinite vyaw = true then
        .ok (vx, vyaw)
      else .error .nonFinite := by
  simp only [kinFwd, Bool.not_eq_true', ← Bool.not_eq_true, Bool.and_eq_true, and_assoc]

/-- KIN_INV (R142). -/
theorem kinInv_eq_ite (vx vyaw r l : α) :
    let h := A.div l (A.ofInt 2)
    let t := A.mul h vyaw
    let wr := A.div (A.add vx t) r
    let wl := A.div (A.sub vx t) r
    kinInv A vx vyaw r l =
      if ¬(A.isFinite vx = true ∧ A.isFinite vyaw = true ∧ A.isFinite r = true ∧ A.isFinite l = true) then
        .error .nonFinite
      else if A.isZero r = true then .error .divZero
      else if A.isFinite h = true ∧ A.isFinite t = true ∧ A.isFinite wr = true ∧ A.isFinite wl = true then
        .ok (wl, wr)
      else .error .nonFinite := by
  simp only [kinInv, Bool.not_eq_true', ← Bool.not_eq_true, Bool.and_eq_true, and_assoc]

/-- A measurement fails as KIN_FWD does (R184). -/
theorem measureWith_of_error {s : State} {cause : SubCause}
    (h : kinFwd A (decWheel A (frameLeft s.latestFrame)) (decWheel A (frameRight s.latestFrame)) (A.ofBits s.cfgRadius)
      (A.ofBits s.cfgSep) = .error cause) : measureWith A s = .error cause := by
  simp only [measureWith, decMotion, h]

/-- ENCODE fails as KIN_INV does (R167). -/
theorem encodeCommand_of_kinInv_error (q : MagQuant) {vx vyaw r l : α} {cause : SubCause}
    (h : kinInv A vx vyaw r l = .error cause) : encodeCommand A q vx vyaw r l = .error cause := by
  simp only [encodeCommand, h]

end

/-! ### The encoder in binary64, written out (R161 to R167) -/

/-- The magnitude byte of a tick value (R163, R164). -/
theorem encQuant_encClamp_b64 (q : MagQuant) (t : B64) :
    encQuant arithB64 q (encClamp arithB64 t) = wheelMagnitude q t := by
  cases q with
  | trunc =>
    rw [encQuant_b64_trunc, B64.floor_eq, toRat_encClamp]
    exact congrArg _ (Int.floor_toNat _).symm
  | rne => rfl

/-- ENC_WHEEL in binary64: it fails exactly if the tick value is not finite (R161, R165). -/
theorem encWheel_b64 (q : MagQuant) (w : B64) :
    encWheel arithB64 q w =
      if B64.isFinite (wheelTicks w) = true then
        .ok (wheelMagnitude q (wheelTicks w), wheelDirection (wheelTicks w))
      else .error .nonFinite := by
  have hticks : encTicks arithB64 w =
      if B64.isFinite (wheelTicks w) = true then .ok (wheelTicks w) else .error .nonFinite := rfl
  split_ifs at hticks ⊢ with hfin
  · exact (encWheel_ok_iff arithB64 q w _ _).2 ⟨_, hticks, (encQuant_encClamp_b64 q _).symm, (encDir_b64 hfin).symm⟩
  · simp only [encWheel, hticks]

/-- ENCODE in binary64, once KIN_INV has answered: it fails exactly if a tick value is not finite (R167). -/
theorem encodeCommand_b64_of_kinInv_ok (q : MagQuant) {vx vyaw r l wl wr : B64}
    (h : kinInv arithB64 vx vyaw r l = .ok (wl, wr)) :
    encodeCommand arithB64 q vx vyaw r l =
      if B64.isFinite (wheelTicks wl) = true ∧ B64.isFinite (wheelTicks wr) = true then
        .ok ⟨wheelMagnitude q (wheelTicks wl), wheelDirection (wheelTicks wl), wheelMagnitude q (wheelTicks wr),
          wheelDirection (wheelTicks wr)⟩
      else .error .nonFinite := by
  have hl := encWheel_b64 q wl
  have hr := encWheel_b64 q wr
  by_cases hfl : B64.isFinite (wheelTicks wl) = true
  · rw [if_pos hfl] at hl
    by_cases hfr : B64.isFinite (wheelTicks wr) = true
    · rw [if_pos hfr] at hr
      rw [if_pos ⟨hfl, hfr⟩]
      exact (encodeCommand_ok_iff arithB64 q _ _ _ _ _).2 ⟨wl, wr, h, hl, hr⟩
    · rw [if_neg hfr] at hr
      rw [if_neg fun hf => hfr hf.2]
      simp only [encodeCommand, h, hl, hr]
  · rw [if_neg hfl] at hl
    rw [if_neg fun hf => hfl hf.1]
    simp only [encodeCommand, h, hl]

/-- Half of a finite separation is finite (R142). -/
theorem isFinite_halfSep {l : B64} (h : B64.isFinite l = true) : B64.isFinite (B64.div l (B64.ofInt 2)) = true := by
  obtain ⟨hfin, hval⟩ := B64.toRat_ofInt (k := 2) (by norm_num)
  exact B64.isFinite_div_of_one_le h hfin (by rw [hval]; norm_num)

/-! ### The rules, per outcome -/

/-- Before any frame an ODOM_TICK is skipped (R121, R184). -/
theorem odomTickRule_of_noFrame {s : State} (hv : s.latestValid = false) :
    odomTickRule s = { s with obs := [⟨.skipNoFrame, false⟩] } := if_pos hv

/-- An ODOM_TICK that has no measurement is skipped (R184, R203). -/
theorem odomTickRule_of_error {s : State} {cause : SubCause} (hv : s.latestValid = true)
    (hm : odomMeasurement s = .error cause) : odomTickRule s = { s with obs := [⟨.skipArith cause, false⟩] } := by
  rw [odomTickRule, if_neg (by simp [hv]), hm]
  rfl

/-- Before any frame a BATT_TICK is skipped (R121, R185). -/
theorem battTickRule_of_noFrame {s : State} (hv : s.latestValid = false) :
    battTickRule s = { s with obs := [⟨.skipNoFrame, false⟩] } := if_pos hv

/-! ### The statements -/

/-- Settles O7: the third case of a step. -/
theorem stepRunsDecodedInstruction : Obligations.StepRunsDecodedInstruction :=
  fun _ _ _ _ => step_of_decode

/-- Settles O9: the state without the delivered word is the state it was delivered to. -/
theorem deliveredWordRunsNext : Obligations.DeliveredWordRunsNext :=
  fun s nbits w _ h => step_of_decode (s := s.deliver (tableWord nbits w)) rfl (decodeTableWord_eq_some_iff.1 h)

/-- Settles O38: the rule of SET_CMD, performed in RUN. -/
theorem setCmdStoresPair : Obligations.SetCmdStoresPair :=
  ⟨fun _ => decode_ev_setCmd, fun s vx vyaw hm => congrArg Host.Outcome.next (s.perform_of_run (setCmdRule vx vyaw) hm)⟩

/-- Settles O49: the rule of the reserved code, performed in RUN. -/
theorem reservedCodeRefused : Obligations.ReservedCodeRefused :=
  ⟨fun _ => decode_ev_reserved, fun s hm => congrArg Host.Outcome.next (s.perform_of_run reservedRule hm)⟩

/-- Settles O30: the two cases of a BATT_TICK's rule, with the voltage rounded once. -/
theorem battTickOutcome : Obligations.BattTickOutcome := by
  refine ⟨fun _ => decode_ev_battTick, fun s hm hn => ?_⟩
  have hvolt : voltage s = .b64 (B64.fl false (((s.latestFrame.extractLsb' 0 16).toNat : ℚ) / 100)) := by
    simp only [voltage, hn]
    exact congrArg Num.b64 (decVolt_b64 (BitVec.isLt _))
  rw [exec_battTick_of_run hm, ← hvolt]
  exact ⟨fun hv => congrArg _ (battTickRule_of_noFrame hv), fun hv => congrArg _ (battTickRule_of_valid hv)⟩

/-- Settles O31: one branch of the rule and of KIN_FWD per branch of the statement; the wheel speeds are finite, so the
geometry decides the first check. -/
theorem odomTickOutcome : Obligations.OdomTickOutcome := by
  refine ⟨fun _ => decode_ev_odomTick, ?_⟩
  intro s hm hn wl wr vl vr vx vyaw
  have hmeas : odomMeasurement s = measureWith arithB64 s := by simp only [odomMeasurement, hn]
  have hwl : B64.isFinite wl = true := isFinite_wheelSpeed _
  have hwr : B64.isFinite wr = true := isFinite_wheelSpeed _
  have hkin := kinFwd_eq_ite arithB64 wl wr s.cfgRadius s.cfgSep
  have hskip {cause : SubCause} (hv : ¬s.latestValid = false)
      (h : kinFwd arithB64 wl wr s.cfgRadius s.cfgSep = .error cause) :
      odomTickRule s = { s with obs := [⟨.skipArith cause, false⟩] } :=
    odomTickRule_of_error (by simpa using hv) (hmeas.trans (measureWith_of_error arithB64 h))
  rw [exec_odomTick_of_run hm]
  congr 1
  split
  case isTrue hv => exact odomTickRule_of_noFrame hv
  case isFalse hv =>
    split
    case isTrue hgeom => exact hskip hv (hkin.trans (if_pos fun ⟨_, _, hgeom'⟩ => hgeom hgeom'))
    case isFalse hgeom =>
      replace hkin := hkin.trans (if_neg (not_not.2 ⟨hwl, hwr, not_not.1 hgeom⟩))
      split
      case isTrue hz => exact hskip hv (hkin.trans (if_pos hz))
      case isFalse hz =>
        replace hkin := hkin.trans (if_neg hz)
        split
        case isTrue hok =>
          have hkin := hkin.trans (if_pos hok)
          have hm := hmeas.trans ((measureWith_ok_iff arithB64 s _).2 ⟨vx, vyaw, hkin, rfl⟩)
          exact odomTickRule_of_ok (by simpa using hv) hm
        case isFalse hok => exact hskip hv (hkin.trans (if_neg hok))

/-- Settles O39: one branch of KIN_INV and of the two tick conversions per branch of the statement; half of a finite
separation is finite. -/
theorem cmdTickOutcome : Obligations.CmdTickOutcome := by
  refine ⟨fun _ => decode_ev_cmdTick, ?_⟩
  intro s hm hn t wr wl tl tr sent skipped c
  have henc : encodeRegisters s =
      encodeCommand arithB64 s.par.magQuant s.cmdVx s.cmdVyaw s.cfgRadius s.cfgSep := by
    simp only [encodeRegisters, hn]
    rfl
  have hkin := kinInv_eq_ite arithB64 s.cmdVx s.cmdVyaw s.cfgRadius s.cfgSep
  have hskip {cause : SubCause} (h : encodeRegisters s = .error cause) : cmdTickRule s = skipped cause := by
    rcases cmdTickRule_cases s with ⟨c, hc, -⟩ | ⟨cause', hc, e⟩
    · exact nomatch hc.symm.trans h
    · obtain rfl : cause' = cause := Except.error.inj (hc.symm.trans h)
      exact e
  have hskipKin {cause : SubCause}
      (h : kinInv arithB64 s.cmdVx s.cmdVyaw s.cfgRadius s.cfgSep = .error cause) : cmdTickRule s = skipped cause :=
    hskip (henc.trans (encodeCommand_of_kinInv_error arithB64 _ h))
  rw [exec_cmdTick_of_run hm]
  congr 1
  split
  case isTrue hop => exact hskipKin (hkin.trans (if_pos hop))
  case isFalse hop =>
    replace hkin := hkin.trans (if_neg hop)
    obtain ⟨-, -, -, hsep⟩ := not_not.1 hop
    split
    case isTrue hz => exact hskipKin (hkin.trans (if_pos hz))
    case isFalse hz =>
      replace hkin := hkin.trans (if_neg hz)
      split
      case isTrue hwheels => exact hskipKin (hkin.trans (if_neg fun ⟨_, hwheels'⟩ => hwheels hwheels'))
      case isFalse hwheels =>
        replace hkin := hkin.trans (if_pos ⟨isFinite_halfSep hsep, not_not.1 hwheels⟩)
        have hticks := henc.trans (encodeCommand_b64_of_kinInv_ok _ hkin)
        split
        case isTrue h => exact hskip (hticks.trans (if_neg h))
        case isFalse h => exact cmdTickRule_of_ok (hticks.trans (if_pos (not_not.1 h)))

end Sys2Proof.Machine
/-! PROOFS. What the ticks read (44_events.md R189, R191): two states that agree on it have the same outcome and publish the
same values, and nothing but a RESET or a publication changes what the telemetry ticks read. -/

namespace Sys2Proof.Machine

/-! ### What each tick reads (R189) -/

/-- The two states agree on what an ODOM_TICK and a BATT_TICK read: MODE, the parameters, the latest frame and the geometry. -/
structure SameTelemetryInputs (s t : State) : Prop where
  mode : s.mode = t.mode
  par : s.par = t.par
  latestFrame : s.latestFrame = t.latestFrame
  latestValid : s.latestValid = t.latestValid
  cfgSep : s.cfgSep = t.cfgSep
  cfgRadius : s.cfgRadius = t.cfgRadius

theorem SameTelemetryInputs.refl (s : State) : SameTelemetryInputs s s := ⟨rfl, rfl, rfl, rfl, rfl, rfl⟩

theorem SameTelemetryInputs.trans {s t u : State} (hst : SameTelemetryInputs s t) (htu : SameTelemetryInputs t u) :
    SameTelemetryInputs s u where
  mode := hst.mode.trans htu.mode
  par := hst.par.trans htu.par
  latestFrame := hst.latestFrame.trans htu.latestFrame
  latestValid := hst.latestValid.trans htu.latestValid
  cfgSep := hst.cfgSep.trans htu.cfgSep
  cfgRadius := hst.cfgRadius.trans htu.cfgRadius

/-- The measurement is of what an ODOM_TICK reads (R125, R141). -/
theorem odomMeasurement_congr {s₁ s₂ : State} (h : SameTelemetryInputs s₁ s₂) :
    odomMeasurement s₁ = odomMeasurement s₂ := by
  simp only [odomMeasurement, measureWith, h.par, h.latestFrame, h.cfgRadius, h.cfgSep]

/-- The voltage is of the parameters and the latest frame (R124). -/
theorem voltage_congr {s₁ s₂ : State} (hpar : s₁.par = s₂.par) (hframe : s₁.latestFrame = s₂.latestFrame) :
    voltage s₁ = voltage s₂ := by
  simp only [voltage, hpar, hframe]

/-- The wheel command is of the parameters, the commanded twist and the geometry (R167). -/
theorem encodeRegisters_congr {s₁ s₂ : State} (hpar : s₁.par = s₂.par) (hvx : s₁.cmdVx = s₂.cmdVx)
    (hvyaw : s₁.cmdVyaw = s₂.cmdVyaw) (hsep : s₁.cfgSep = s₂.cfgSep) (hradius : s₁.cfgRadius = s₂.cfgRadius) :
    encodeRegisters s₁ = encodeRegisters s₂ := by
  simp only [encodeRegisters, encodeWith, hpar, hvx, hvyaw, hsep, hradius]

/-- In states of the same MODE a dispatched event is DEAD in both, or its rule in both (R180, R206). -/
theorem State.perform_cases₂ {s₁ s₂ : State} (hmode : s₁.mode = s₂.mode) (rule : State → State) :
    (s₁.perform rule = s₁.dead ∧ s₂.perform rule = s₂.dead) ∨
    (s₁.perform rule = rule s₁ ∧ s₂.perform rule = rule s₂) := by
  rcases s₁.perform_cases rule with ⟨hm, e⟩ | ⟨hm, e⟩
  · exact .inl ⟨e, s₂.perform_of_fatal rule (hmode.symm.trans hm)⟩
  · exact .inr ⟨e, s₂.perform_of_run rule (hmode.symm.trans hm)⟩

section
variable {s₁ s₂ t₁ t₂ : State}

/-- The outcome of an ODOM_TICK, and on success what it publishes, depend on what it reads (R184, R189). -/
theorem exec_odomTick_congr (h : SameTelemetryInputs s₁ s₂) (h₁ : exec .odomTick s₁ = .next t₁)
    (h₂ : exec .odomTick s₂ = .next t₂) :
    t₁.obs = t₂.obs ∧
      (t₁.obs = [⟨.ok none, false⟩] → t₁.wheelWL = t₂.wheelWL ∧ t₁.wheelWR = t₂.wheelWR ∧
        t₁.measVx = t₂.measVx ∧ t₁.measVyaw = t₂.measVyaw ∧ t₁.measValid = t₂.measValid) := by
  obtain rfl : s₁.perform odomTickRule = t₁ := by simpa using h₁
  obtain rfl : s₂.perform odomTickRule = t₂ := by simpa using h₂
  rcases State.perform_cases₂ h.mode odomTickRule with ⟨e₁, e₂⟩ | ⟨e₁, e₂⟩ <;> rw [e₁, e₂]
  · simp
  · have hmeas := odomMeasurement_congr h
    rcases odomTickRule_cases s₁ with ⟨hv, r₁⟩ | ⟨hv, cause, hm, r₁⟩ | ⟨hv, m, hm, r₁⟩ <;>
      rw [h.latestValid] at hv
    · rw [r₁, odomTickRule_of_noFrame hv]
      simp
    · rw [r₁, odomTickRule_of_error hv (hmeas.symm.trans hm)]
      simp
    · rw [r₁, odomTickRule_of_ok hv (hmeas.symm.trans hm)]
      simp

/-- The outcome of a BATT_TICK, and on success what it publishes, depend on what it reads (R185, R189). -/
theorem exec_battTick_congr (hmode : s₁.mode = s₂.mode) (hpar : s₁.par = s₂.par)
    (hframe : s₁.latestFrame = s₂.latestFrame) (hvalid : s₁.latestValid = s₂.latestValid)
    (h₁ : exec .battTick s₁ = .next t₁) (h₂ : exec .battTick s₂ = .next t₂) :
    t₁.obs = t₂.obs ∧ (t₁.obs = [⟨.ok none, false⟩] → t₁.volt = t₂.volt ∧ t₁.voltValid = t₂.voltValid) := by
  obtain rfl : s₁.perform battTickRule = t₁ := by simpa using h₁
  obtain rfl : s₂.perform battTickRule = t₂ := by simpa using h₂
  rcases State.perform_cases₂ hmode battTickRule with ⟨e₁, e₂⟩ | ⟨e₁, e₂⟩ <;> rw [e₁, e₂]
  · simp
  · rcases battTickRule_cases s₁ with ⟨hv, r₁⟩ | ⟨hv, r₁⟩ <;> rw [hvalid] at hv
    · rw [r₁, battTickRule_of_noFrame hv]
      simp
    · rw [r₁, battTickRule_of_valid hv, voltage_congr hpar hframe]
      simp

/-- The outcome of a CMD_TICK, the wheel command it leaves and the bytes it sends depend on what it reads, the wheel command
held before among it, which RESEND sends (R186, R189). -/
theorem exec_cmdTick_congr (hmode : s₁.mode = s₂.mode) (hpar : s₁.par = s₂.par) (hwcmd : s₁.wcmd = s₂.wcmd)
    (henc : encodeRegisters s₁ = encodeRegisters s₂) (h₁ : exec .cmdTick s₁ = .next t₁)
    (h₂ : exec .cmdTick s₂ = .next t₂) :
    t₁.obs = t₂.obs ∧ t₁.wcmd = t₂.wcmd ∧ t₁.tx.drop s₁.tx.length = t₂.tx.drop s₂.tx.length := by
  obtain rfl : s₁.perform cmdTickRule = t₁ := by simpa using h₁
  obtain rfl : s₂.perform cmdTickRule = t₂ := by simpa using h₂
  rcases State.perform_cases₂ hmode cmdTickRule with ⟨e₁, e₂⟩ | ⟨e₁, e₂⟩ <;> rw [e₁, e₂]
  · simp [hwcmd]
  · cases he : encodeRegisters s₁ with
    | ok c =>
      rw [cmdTickRule_of_ok he, cmdTickRule_of_ok (henc.symm.trans he)]
      simp
    | error cause =>
      rw [cmdTickRule_of_error he, cmdTickRule_of_error (henc.symm.trans he)]
      simp [hpar, hwcmd]

end

/-! ### What changes it (R191) -/

/-- Bytes received without a strobe leave the latest frame (R112). -/
theorem receiveAll_keeps_latest (bs : List Byte) (s : State) (h : (receiveAll bs s).framePub = false) :
    (receiveAll bs s).latestFrame = s.latestFrame ∧ (receiveAll bs s).latestValid = s.latestValid := by
  induction bs generalizing s with
  | nil => exact ⟨rfl, rfl⟩
  | cons b bs ih =>
    have hparts : (s.receive b).framePub = false ∧ (receiveAll bs (s.receive b)).framePub = false := by
      simpa only [receiveAll_cons, State.framePub, List.any_append, Bool.or_eq_false_iff] using h
    obtain ⟨hbyte, hrest⟩ := hparts
    obtain ⟨hframe, hvalid⟩ := latestFrameStaysUntilSuperseded (.rxByte b) s (s.receive b) rfl nofun rfl hbyte
    obtain ⟨hframe', hvalid'⟩ := ih _ hrest
    exact ⟨hframe'.trans hframe, hvalid'.trans hvalid⟩

/-- Of the instructions that are no event only RXFRAME can write the latest frame; none writes it without a strobe (R112;
log entries 1 and 2). -/
theorem exec_keeps_latest {i : Instr} {s t : State} (hne : ∀ c, i ≠ .reset c) (h : exec i s = .next t)
    (hquiet : t.framePub = false) : t.latestFrame = s.latestFrame ∧ t.latestValid = s.latestValid := by
  by_cases hframe : ∃ vL vR bat, i = .rxFrame vL vR bat
  · obtain ⟨vL, vR, bat, rfl⟩ := hframe
    obtain rfl : receiveAll (rxFrameBytes vL vR bat).toList s = t := by simpa using h
    exact receiveAll_keeps_latest _ s hquiet
  · by_cases hbyte : ∃ b, i = .rxByte b
    · obtain ⟨b, rfl⟩ := hbyte
      exact latestFrameStaysUntilSuperseded _ s t rfl hne h hquiet
    · obtain ⟨-, -, -, hkept, -⟩ := eachRegisterHasOneWriter i s t h
      obtain ⟨-, -, -, -, hreceiver, -⟩ := hkept hne
      obtain ⟨-, hlatest, hvalid, -⟩ := hreceiver (fun b e => hbyte ⟨b, e⟩) (fun vL vR bat e => hframe ⟨vL, vR, bat, e⟩)
      exact ⟨hlatest, hvalid⟩

/-- An instruction that is no RESET and publishes no frame keeps what the telemetry ticks read. -/
theorem exec_keeps_telemetryInputs {i : Instr} {s t : State} (hne : ∀ c, i ≠ .reset c) (h : exec i s = .next t)
    (hquiet : t.framePub = false) : SameTelemetryInputs s t := by
  obtain ⟨-, -, -, hkept, -⟩ := eachRegisterHasOneWriter i s t h
  obtain ⟨hpar, hmode, hsep, hradius, -⟩ := hkept hne
  obtain ⟨hframe, hvalid⟩ := exec_keeps_latest hne h hquiet
  exact ⟨hmode.symm, hpar.symm, hframe.symm, hvalid.symm, hsep.symm, hradius.symm⟩

/-- The instruction is no RESET, as a Boolean and as a proposition. -/
theorem ne_reset_of_isReset {i : Instr} (h : isReset i = false) (c : Bool) : i ≠ .reset c := by
  rintro rfl
  exact nomatch h

/-- One more instruction that publishes nothing: it has a next state, is no RESET, does not strobe, and the rest publishes
nothing from there. -/
theorem publishesNothing_cons {i : Instr} {is : List Instr} {s : State} (h : publishesNothing (i :: is) s = true) :
    ∃ t, exec i s = .next t ∧ isReset i = false ∧ t.framePub = false ∧ publishesNothing is t = true := by
  rw [publishesNothing] at h
  cases he : exec i s with
  | next t =>
    simp only [he, Bool.and_eq_true, Bool.not_eq_true', and_assoc] at h
    exact ⟨t, rfl, h⟩
  | fault r => simp [he] at h
  | refused r => simp [he] at h

/-- The instructions after the first are performed from the state it leaves (R207). -/
theorem performAll_cons {i : Instr} {s t : State} (is : List Instr) (h : exec i s = .next t) :
    performAll (i :: is) s = performAll is t := by
  rw [performAll, h]

/-- Instructions that publish nothing keep what the telemetry ticks read. -/
theorem performAll_keeps_telemetryInputs (is : List Instr) {s : State} (h : publishesNothing is s = true) :
    SameTelemetryInputs s (performAll is s) := by
  induction is generalizing s with
  | nil => exact .refl s
  | cons i is ih =>
    obtain ⟨t, he, hreset, hquiet, hrest⟩ := publishesNothing_cons h
    rw [performAll_cons is he]
    exact (exec_keeps_telemetryInputs (ne_reset_of_isReset hreset) he hquiet).trans (ih hrest)

/-! ### The statements -/

/-- Settles O56: the states agree on what each tick reads. -/
theorem ticksAreIndependent : Obligations.TicksAreIndependent := by
  intro s₁ s₂ t₁ t₂ hmode hpar
  refine ⟨fun hframe hvalid => exec_battTick_congr hmode hpar hframe hvalid, fun hframe hvalid hsep hradius => ?_,
    fun hvx hvyaw hwcmd hsep hradius => ?_⟩
  · exact exec_odomTick_congr ⟨hmode, hpar, hframe, hvalid, hsep, hradius⟩
  · exact exec_cmdTick_congr hmode hpar hwcmd (encodeRegisters_congr hpar hvx hvyaw hsep hradius)

/-- Settles O58: the state after the list agrees with the one before it on what the telemetry ticks read. -/
theorem staleTicksRepeat : Obligations.StaleTicksRepeat := by
  intro is s a b hquiet
  have h := performAll_keeps_telemetryInputs is hquiet
  exact ⟨exec_odomTick_congr h, exec_battTick_congr h.mode h.par h.latestFrame h.latestValid⟩

end Sys2Proof.Machine

/-! PROOFS. Exceptions (60_exceptions.md): what a skip commits (R201), what FATAL leaves of each event (R206), that every
instruction completes (R207), and the steps that perform no instruction (R204, R217). -/

namespace Sys2Proof.Machine

/-! ### One observation per event (R200) -/

/-- SYNC_FILL is observed once, with outcome OK, whichever way the byte goes (R101 to R103). -/
theorem syncFill_obs (b : Byte) (s : State) : ∃ tag strobe, (syncFill b s).obs = [⟨.ok (some tag), strobe⟩] := by
  rcases winN_cases s.winN with h | h
  · exact ⟨_, _, congrArg State.obs (syncFill_of_lt b s h)⟩
  · cases hh : headerOk s.win with
    | true => exact ⟨_, _, congrArg State.obs (syncFill_accept b s h hh)⟩
    | false => exact ⟨_, _, congrArg State.obs (syncFill_slip b s h hh)⟩

theorem length_obs_syncFill (b : Byte) (s : State) : (syncFill b s).obs.length = 1 := by
  obtain ⟨_, _, hobs⟩ := syncFill_obs b s
  rw [hobs, List.length_singleton]

/-- An event whose rule is observed once is observed once in either mode (R180, R206). -/
theorem State.length_obs_perform {s : State} {rule : State → State} (h : (rule s).obs.length = 1) :
    (s.perform rule).obs.length = 1 :=
  s.perform_induction (P := fun t => t.obs.length = 1) rule rfl fun _ => h

/-- Bytes received in one step are observed once each (R82; log entry 1). -/
theorem length_obs_receiveAll (bs : List Byte) (s : State) : (receiveAll bs s).obs.length = bs.length := by
  induction bs generalizing s with
  | nil => rfl
  | cons b bs ih =>
    have hbyte : (s.receive b).obs.length = 1 := State.length_obs_perform (length_obs_syncFill b s)
    rw [receiveAll_cons, List.length_append, hbyte, ih, List.length_cons, Nat.add_comm]

/-- Every event but RESET is a rule dispatched on MODE, and the rule is observed once (R180, R200). -/
theorem exists_rule_of_isEvent {i : Instr} (hi : i.isEvent = true) (hne : ∀ c, i ≠ .reset c) :
    ∃ rule : State → State, (∀ s, exec i s = .next (s.perform rule)) ∧ ∀ s, (rule s).obs.length = 1 := by
  cases i with
  | rxByte b => exact ⟨syncFill b, exec_rxByte b, length_obs_syncFill b⟩
  | rxIdle => exact ⟨syncIdle, exec_rxIdle, fun _ => rfl⟩
  | setCmd vx vyaw => exact ⟨setCmdRule vx vyaw, exec_setCmd vx vyaw, fun _ => rfl⟩
  | odomTick =>
    refine ⟨odomTickRule, exec_odomTick, fun s => ?_⟩
    rcases odomTickRule_cases s with ⟨-, e⟩ | ⟨-, _, -, e⟩ | ⟨-, _, -, e⟩ <;> rw [e] <;> rfl
  | battTick =>
    refine ⟨battTickRule, exec_battTick, fun s => ?_⟩
    rcases battTickRule_cases s with ⟨-, e⟩ | ⟨-, e⟩ <;> rw [e] <;> rfl
  | cmdTick =>
    refine ⟨cmdTickRule, exec_cmdTick, fun s => ?_⟩
    rcases cmdTickRule_cases s with ⟨_, -, e⟩ | ⟨_, -, e⟩ <;> rw [e] <;> rfl
  | reset chanOk => exact absurd rfl (hne chanOk)
  | reserved => exact ⟨reservedRule, exec_reserved, fun _ => rfl⟩
  | rxFrame vL vR bat => exact absurd hi Bool.false_ne_true
  | txFrame lmag ldir rmag rdir => exact absurd hi Bool.false_ne_true

/-- Every event, RESET among them, is observed once (R200). -/
theorem length_obs_of_isEvent {i : Instr} {s t : State} (hi : i.isEvent = true) (h : exec i s = .next t) :
    t.obs.length = 1 := by
  by_cases hreset : ∃ c, i = .reset c
  · obtain ⟨c, rfl⟩ := hreset
    obtain rfl : (s.resetRegisters s.envPar c).observe (if c then .ok none else .dead) = t := by simpa using h
    rfl
  · obtain ⟨rule, hrule, hobs⟩ := exists_rule_of_isEvent hi (not_exists.1 hreset)
    obtain rfl : s.perform rule = t := by simpa [hrule] using h
    exact State.length_obs_perform (hobs s)

/-- No outcome stops ACB (R207; log entry 15). -/
theorem exists_exec_next (i : Instr) (s : State) : ∃ t, exec i s = .next t := by
  cases i <;> exact ⟨_, rfl⟩

/-! ### Skips (R201) -/

/-- The event was observed to end in SKIP_NOFRAME or SKIP_ARITH (R200). -/
def IsSkip (obs : List Observation) : Prop :=
  obs = [⟨.skipNoFrame, false⟩] ∨ ∃ cause, obs = [⟨.skipArith cause, false⟩]

/-- A skip is the one observation of its event. -/
theorem IsSkip.length_eq {obs : List Observation} (h : IsSkip obs) : obs.length = 1 := by
  rcases h with rfl | ⟨_, rfl⟩ <;> rfl

/-- No other outcome is a skip. -/
theorem not_isSkip_of_ne {c : OutcomeCode} {strobe : Bool} (hframe : c ≠ .skipNoFrame)
    (harith : ∀ cause, c ≠ .skipArith cause) : ¬IsSkip [⟨c, strobe⟩] := by
  simp [IsSkip, hframe, harith]

theorem not_isSkip_ok {tag : Option RxTag} {strobe : Bool} : ¬IsSkip [⟨.ok tag, strobe⟩] :=
  not_isSkip_of_ne nofun nofun

/-- A dispatched event that skips has performed its rule, since DEAD is no skip (R180, R206). -/
theorem State.perform_of_isSkip {s : State} {rule : State → State} (h : IsSkip (s.perform rule).obs) :
    s.perform rule = rule s := by
  rcases s.perform_cases rule with ⟨-, e⟩ | ⟨-, e⟩
  · rw [e] at h
    exact absurd h (not_isSkip_of_ne nofun nofun)
  · exact e

/-- An event whose rule does not skip does not skip in either mode. -/
theorem State.not_isSkip_perform {s : State} {rule : State → State} (h : ¬IsSkip (rule s).obs) :
    ¬IsSkip (s.perform rule).obs :=
  fun hskip => h (State.perform_of_isSkip hskip ▸ hskip)

/-- Everything an instruction that skips can have done: taken the skip, or, a CMD_TICK under RESEND, sent the previous frame
and taken it (R186, R201). -/
theorem exec_skip_cases {i : Instr} {s t : State} (h : exec i s = .next t) (hskip : IsSkip t.obs) :
    (∃ c, t = s.skip c) ∨
    (i = .cmdTick ∧ s.par.cmdFaultPolicy = .resend ∧ ∃ c, t = (s.transmit (encFrame s.wcmd)).skip c) := by
  cases i with
  | rxByte b =>
    obtain rfl : s.receive b = t := by simpa using h
    obtain ⟨_, _, hobs⟩ := syncFill_obs b s
    exact absurd hskip (State.not_isSkip_perform (hobs ▸ not_isSkip_ok))
  | rxIdle =>
    obtain rfl : s.perform syncIdle = t := by simpa using h
    exact absurd hskip (State.not_isSkip_perform not_isSkip_ok)
  | setCmd vx vyaw =>
    obtain rfl : s.perform (setCmdRule vx vyaw) = t := by simpa using h
    exact absurd hskip (State.not_isSkip_perform not_isSkip_ok)
  | odomTick =>
    obtain rfl : s.perform odomTickRule = t := by simpa using h
    have hrule := State.perform_of_isSkip hskip
    rcases odomTickRule_cases s with ⟨-, e⟩ | ⟨-, _, -, e⟩ | ⟨-, _, -, e⟩
    · exact .inl ⟨_, hrule.trans e⟩
    · exact .inl ⟨_, hrule.trans e⟩
    · exact absurd hskip (State.not_isSkip_perform (e ▸ not_isSkip_ok))
  | battTick =>
    obtain rfl : s.perform battTickRule = t := by simpa using h
    rcases battTickRule_cases s with ⟨-, e⟩ | ⟨-, e⟩
    · exact .inl ⟨_, (State.perform_of_isSkip hskip).trans e⟩
    · exact absurd hskip (State.not_isSkip_perform (e ▸ not_isSkip_ok))
  | cmdTick =>
    obtain rfl : s.perform cmdTickRule = t := by simpa using h
    rcases cmdTickRule_cases s with ⟨_, -, e⟩ | ⟨_, -, e⟩
    · exact absurd hskip (State.not_isSkip_perform (e ▸ not_isSkip_ok))
    · have hrule := (State.perform_of_isSkip hskip).trans e
      by_cases hp : s.par.cmdFaultPolicy = .resend
      · rw [if_pos hp] at hrule
        exact .inr ⟨rfl, hp, _, hrule⟩
      · rw [if_neg hp] at hrule
        exact .inl ⟨_, hrule⟩
  | reset chanOk =>
    obtain rfl : (s.resetRegisters s.envPar chanOk).observe (if chanOk then .ok none else .dead) = t := by
      simpa using h
    cases chanOk with
    | true => exact absurd hskip not_isSkip_ok
    | false => exact absurd hskip (not_isSkip_of_ne nofun nofun)
  | reserved =>
    obtain rfl : s.perform reservedRule = t := by simpa using h
    exact absurd hskip (State.not_isSkip_perform (not_isSkip_of_ne nofun nofun))
  | rxFrame vL vR bat =>
    obtain rfl : receiveAll (rxFrameBytes vL vR bat).toList s = t := by simpa using h
    have hlen := hskip.length_eq
    rw [length_obs_receiveAll, Vector.length_toList] at hlen
    exact absurd hlen (by decide)
  | txFrame lmag ldir rmag rdir =>
    obtain rfl : s.noEvent = t := by simpa using h
    exact nomatch hskip.length_eq

/-! ### FATAL (R206) -/

/-- In FATAL any bytes are as many dead events and nothing else. -/
theorem receiveAll_of_fatal (bs : List Byte) {s : State} (hm : s.mode = .fatal) :
    receiveAll bs s = { s with obs := List.replicate bs.length ⟨.dead, false⟩ } := by
  induction bs generalizing s with
  | nil => rfl
  | cons b bs ih =>
    have hbyte : s.receive b = s.dead := s.perform_of_fatal _ hm
    rw [receiveAll_cons, hbyte, ih (s := s.dead) hm]
    rfl

/-- RESET chooses MODE by `chan_ok` (R187, R230). -/
theorem exec_reset_mode {chanOk : Bool} {s t : State} (h : exec (.reset chanOk) s = .next t) :
    t.mode = if chanOk then .run else .fatal := by
  obtain rfl : (s.resetRegisters s.envPar chanOk).observe (if chanOk then .ok none else .dead) = t := by simpa using h
  rfl

/-! ### Steps without an instruction (log entries 3, 4, 5, 14) -/

section
variable {s : State} {rest : List Input}

/-- With nothing to come no event is performed (R217). -/
theorem step_of_noInput (hin : s.input = []) : step s = .next s.noEvent := by
  have hfetch : s.fetch = none := by rw [State.fetch, hin]
  simp only [step, hfetch]

/-- The parameters the environment fixes are noted for the next RESET (R234). -/
theorem step_of_fixParameters {p : Params} (hin : s.input = .fixParameters p :: rest) :
    step s = .next (State.setEnvPar { s with input := rest } p) := by
  have hfetch : s.fetch = some (.fixParameters p, { s with input := rest }) := by rw [State.fetch, hin]
  simp only [step, hfetch]

/-- A word that the decoder rejects is taken as what it is (R78; log entry 14). -/
theorem step_of_decode_error {w : InputWord} {e : DecodeError} (hin : s.input = .word w :: rest)
    (hdec : decode w = .error e) : step s = .next (State.takeNonRow { s with input := rest } e) := by
  have hfetch : s.fetch = some (.word w, { s with input := rest }) := by rw [State.fetch, hin]
  simp only [step, hfetch, hdec]

end

/-- A 64-bit word without the header pair is no input frame (R73). -/
theorem decode_rxf_of_not_header {w : BitVec 64} (h : w.extractLsb' 48 16 ≠ Config.hdr0 ++ Config.hdr1) :
    decode (.rxf w) = .error (.notAnInputFrame w) :=
  if_neg h

/-- A 48-bit word outside the mask is no output frame (R76). -/
theorem decode_txf_of_not_mask {t : BitVec 48} (h : t &&& 0xFFFF00FE00FE ≠ 0xFFFE00000000) :
    decode (.txf t) = .error (.notAnOutputFrame t) := by
  rw [Ne, txf_mask_iff, ← dirByteOk_iff_mask, ← dirByteOk_iff_mask] at h
  exact if_neg h

/-! ### The statements -/

/-- Settles O48: a skip keeps the state, and sending the previous frame writes TX alone. -/
theorem skipCommitsNothing : Obligations.SkipCommitsNothing := by
  intro i s t h hskip
  rcases exec_skip_cases h hskip with ⟨c, rfl⟩ | ⟨hi, hp, c, rfl⟩
  · exact ⟨rfl, .inl rfl⟩
  · exact ⟨rfl, .inr ⟨hi, hp, rfl⟩⟩

/-- Settles O50: the dispatch on MODE, and that only RESET writes MODE. -/
theorem fatalModeInert : Obligations.FatalModeInert := by
  refine ⟨fun s => ⟨_, exec_reset false s, rfl⟩, fun i s hm hi hne => ?_, fun i s t hm h hrun => ?_⟩
  · obtain ⟨rule, hrule, -⟩ := exists_rule_of_isEvent hi hne
    exact (hrule s).trans (congrArg Host.Outcome.next (s.perform_of_fatal rule hm))
  · by_cases hreset : ∃ c, i = .reset c
    · obtain ⟨c, rfl⟩ := hreset
      cases c with
      | true => rfl
      | false => exact nomatch (exec_reset_mode h).symm.trans hrun
    · have hkept := exec_mode (not_exists.1 hreset) h
      exact nomatch (hkept.trans hm).symm.trans hrun

/-- Settles O8: the branches of a step that do not reach `exec`. -/
theorem stepWithoutInstruction : Obligations.StepWithoutInstruction := by
  refine ⟨fun _ => step_of_noInput, fun _ _ _ => step_of_fixParameters, fun s w rest hin hw => ?_,
    fun s t rest hin ht => step_of_decode_error hin (decode_txf_of_not_mask ht)⟩
  have hbytes := receiveAll_eq_feed (frameBytes w).toList { s with input := rest }
  exact (step_of_decode_error hin (decode_rxf_of_not_header hw)).trans (congrArg Host.Outcome.next hbytes)

/-- Settles O10: every arm of `exec` answers a next state, and every event's rule ends in one observation. -/
theorem everyInstructionCompletes : Obligations.EveryInstructionCompletes := by
  intro i s
  obtain ⟨t, ht⟩ := exists_exec_next i s
  exact ⟨t, ht, fun hi => length_obs_of_isEvent hi ht⟩

/-- Settles O51: the eight bytes are dead, and an output frame is no event in either mode. -/
theorem fatalModeDropsFrames : Obligations.FatalModeDropsFrames := by
  refine fun s hm => ⟨fun vL vR bat => ?_, fun lmag ldir rmag rdir => exec_txFrame lmag ldir rmag rdir s⟩
  have hbytes := receiveAll_of_fatal (rxFrameBytes vL vR bat).toList hm
  rw [Vector.length_toList] at hbytes
  exact (exec_rxFrame vL vR bat s).trans (congrArg Host.Outcome.next hbytes)

end Sys2Proof.Machine

/-! PROOFS. RESET (70_reset_and_hazards.md R230, R231): what it takes from the state before it, and that the reset state is one
that it leaves. -/

namespace Sys2Proof.Machine

/-! ### What RESET takes over (log entries 5 and 6) -/

/-- RESET forgets every register: two states that agree on what the environment has fixed and delivered and on what was sent are the
same after it. -/
theorem State.reset_congr {s t : State} (p : Params) (chanOk : Bool) (c : OutcomeCode) (hpar : s.envPar = t.envPar)
    (hin : s.input = t.input) (htx : s.tx = t.tx) :
    (s.resetRegisters p chanOk).observe c = (t.resetRegisters p chanOk).observe c := by
  simp only [State.resetRegisters, State.observe, hpar, hin, htx]

/-- The reset state is what a successful RESET makes of itself (log entry 7). -/
theorem exec_reset_reset : exec (.reset true) State.reset = .next State.reset := rfl

/-! ### The statements -/

/-- Settles O52: the reset value of each register is the one that `resetRegisters` writes. -/
theorem resetSetsEveryRegister : Obligations.ResetSetsEveryRegister := by
  intro s chanOk
  exact exec_reset chanOk s

/-- Settles O53: the state before RESET agrees with the reset state on all that RESET takes over, and the reset state resets to
itself. -/
theorem resetStateIsAfterReset : Obligations.ResetStateIsAfterReset := by
  intro s hpar hin htx
  have hsame : exec (.reset true) s = exec (.reset true) State.reset := by
    rw [exec_reset, exec_reset, hpar]
    exact congrArg Host.Outcome.next (State.reset_congr Config.params true (.ok none) hpar hin htx)
  exact hsame.trans exec_reset_reset

end Sys2Proof.Machine
